-- ==== Sys2Proof/Word.lean ====
section
/-! DEFINITION. The byte, the two byte orders and the names of the block's four byte spaces. -/

namespace Sys2Proof

/-- A byte: an 8-bit unsigned value (00_scope.md R9). -/
abbrev Byte := BitVec 8

/-- The byte-order selector, "{LITTLE_ENDIAN, BIG_ENDIAN}" (00_scope.md R7, R14). -/
inductive Endian where
  /-- least significant byte first; selector value 0 -/
  | little
  /-- most significant byte first; selector value 1 -/
  | big
deriving DecidableEq, Repr

/-- The four byte-addressed spaces of 20_memory.md R60; the logs and the registry hold records. -/
inductive Space where
  /-- IBUF, the input frame (10_state.md R29) -/
  | ibuf
  /-- OBUF, the payload under construction (10_state.md R26) -/
  | obuf
  /-- FBUF, the last encoded frame (10_state.md R27) -/
  | fbuf
  /-- STAGE, the bytes of the next string or byte-array field (10_state.md R28) -/
  | stage
deriving DecidableEq, Repr

end Sys2Proof
end

