-- ==== Sys2Proof/Syntax.lean ====
section
/-! DEFINITION. The field types and the 39 commands of SMPFC-CMD v1, one constructor per row of
spec/opcode_table.json. An operand is the bits of the command word that 30_encoding.md R93 gives the
command; DIN, NAME and the staged bytes are not in the word and are read from the state. -/

namespace Sys2Proof

/-- The nine field types (00_scope.md R15). -/
inductive FieldType where
  | byte | short | ushort | int | uint | long | double | string | byteArray
deriving DecidableEq, Repr

/-- One constructor per row of the opcode table (30_encoding.md R93). `a` is an A field that carries a
one-bit selector; `elem` is the element index in B. -/
inductive Instr where
  /-- NOP (44_control.md R240) -/
  | nop
  /-- SET_ENDIAN: A[0] selects the byte order, A[7:1] must be zero (R241) -/
  | setEndian (a : BitVec 8)
  /-- SET_TYPE: A is the type tag (R242) -/
  | setType (tag : Byte)
  /-- SET_SEQ: B is the sequence number (R243) -/
  | setSeq (seq : BitVec 16)
  /-- SET_ERRC: A is the error code (R244) -/
  | setErrc (errc : Byte)
  /-- RD_REG: A is the register number (R245) -/
  | rdReg (reg : BitVec 8)
  /-- SRESET (R246) -/
  | sreset
  /-- STG_CLEAR (45_buffers.md R260) -/
  | stgClear
  /-- STG_PUSH: A is the byte (R261) -/
  | stgPush (byte : Byte)
  /-- IN_CLEAR (R262) -/
  | inClear
  /-- IN_PUSH: A is the byte (R263) -/
  | inPush (byte : Byte)
  /-- IN_READ: B is the index (R264) -/
  | inRead (index : BitVec 16)
  /-- FB_READ: B is the index (R265) -/
  | fbRead (index : BitVec 16)
  /-- LOG_READ: A[0] selects the log, A[7:1] must be zero, B is the 1-based record index (R266) -/
  | logRead (a : BitVec 8) (index : BitVec 16)
  /-- WR_BYTE (41_field_coder.md R164) -/
  | wrByte (elem : BitVec 16)
  /-- WR_SHORT (R165) -/
  | wrShort (elem : BitVec 16)
  /-- WR_USHORT (R166) -/
  | wrUshort (elem : BitVec 16)
  /-- WR_INT (R167) -/
  | wrInt (elem : BitVec 16)
  /-- WR_UINT (R168) -/
  | wrUint (elem : BitVec 16)
  /-- WR_LONG (R169) -/
  | wrLong (elem : BitVec 16)
  /-- WR_DOUBLE (R170) -/
  | wrDouble (elem : BitVec 16)
  /-- WR_STRING (R171) -/
  | wrString (elem : BitVec 16)
  /-- WR_BYTES (R172) -/
  | wrBytes (elem : BitVec 16)
  /-- WR_BYTES_LP (R173) -/
  | wrBytesLp (elem : BitVec 16)
  /-- TX_BEGIN (R160) -/
  | txBegin
  /-- FRAME_ENCODE (40_frame_codec.md R131) -/
  | frameEncode
  /-- RD_BYTE (42_field_decoder.md R194) -/
  | rdByte (elem : BitVec 16)
  /-- RD_SHORT (R195) -/
  | rdShort (elem : BitVec 16)
  /-- RD_USHORT (R196) -/
  | rdUshort (elem : BitVec 16)
  /-- RD_INT (R197) -/
  | rdInt (elem : BitVec 16)
  /-- RD_UINT (R198) -/
  | rdUint (elem : BitVec 16)
  /-- RD_LONG (R199) -/
  | rdLong (elem : BitVec 16)
  /-- RD_DOUBLE (R200) -/
  | rdDouble (elem : BitVec 16)
  /-- RD_STRING (R201) -/
  | rdString (elem : BitVec 16)
  /-- RD_BYTES (R202) -/
  | rdBytes (elem : BitVec 16)
  /-- RD_BYTES_LP (R203) -/
  | rdBytesLp (elem : BitVec 16)
  /-- FRAME_DECODE (40_frame_codec.md R132) -/
  | frameDecode
  /-- FAC_REGISTER: A is the tag, B the handler id (43_factory.md R220) -/
  | facRegister (tag : Byte) (handler : BitVec 16)
  /-- FAC_DISPATCH (R221) -/
  | facDispatch
deriving DecidableEq, Repr

end Sys2Proof
end

