-- ==== Sys2Proof/WellFormed.lean ====
section
/-! DEFINITION. Which terms of `Instr` stand for a command word. -/

namespace Sys2Proof

/-- The bits [7:1] of an A field that carries a one-bit selector must be zero
(30_encoding.md R91, R92). -/
def selectorOk (a : BitVec 8) : Bool := a &&& 0xFE#8 == 0#8

/-- An instruction is well formed when its operands are values the command word may carry. An operand
that fills its field is so by its width; the two selectors have must-be-zero bits (30_encoding.md R92). -/
def Instr.wellFormed : Instr → Bool
  | .nop => true
  | .setEndian a => selectorOk a
  | .setType _ => true
  | .setSeq _ => true
  | .setErrc _ => true
  | .rdReg _ => true
  | .sreset => true
  | .stgClear => true
  | .stgPush _ => true
  | .inClear => true
  | .inPush _ => true
  | .inRead _ => true
  | .fbRead _ => true
  | .logRead a _ => selectorOk a
  | .wrByte _ => true
  | .wrShort _ => true
  | .wrUshort _ => true
  | .wrInt _ => true
  | .wrUint _ => true
  | .wrLong _ => true
  | .wrDouble _ => true
  | .wrString _ => true
  | .wrBytes _ => true
  | .wrBytesLp _ => true
  | .txBegin => true
  | .frameEncode => true
  | .rdByte _ => true
  | .rdShort _ => true
  | .rdUshort _ => true
  | .rdInt _ => true
  | .rdUint _ => true
  | .rdLong _ => true
  | .rdDouble _ => true
  | .rdString _ => true
  | .rdBytes _ => true
  | .rdBytesLp _ => true
  | .frameDecode => true
  | .facRegister _ _ => true
  | .facDispatch => true

end Sys2Proof
end

