-- ==== Sys2Proof/Decode.lean ====
section
/-! DEFINITION. The command word (30_encoding.md R90 to R95): its fields, the decoder, total on all
2^32 words and rejecting by name, and the encoder. -/

namespace Sys2Proof

/-- A value put into a wider word with its bit 0 at bit `lo`. -/
def place (n lo : Nat) {w : Nat} (v : BitVec w) : BitVec n := v.setWidth n <<< lo

/-- OP, bits [7:0] (R90). -/
def wordOp (w : BitVec 32) : BitVec 8 := w.extractLsb' 0 8

/-- A, bits [15:8] (R90). -/
def wordA (w : BitVec 32) : BitVec 8 := w.extractLsb' 8 8

/-- B, bits [31:16] (R90). -/
def wordB (w : BitVec 32) : BitVec 16 := w.extractLsb' 16 16

/-- `CMD = (B << 16) | (A << 8) | OP` (R90). -/
def commandWord (op a : BitVec 8) (b : BitVec 16) : BitVec 32 :=
  place 32 16 b ||| place 32 8 a ||| place 32 0 op

/-- Why a word is no command (R95). Either way executing it raises E_ILLEGAL. -/
inductive DecodeError where
  /-- OP is not assigned -/
  | unassigned (op : BitVec 8)
  /-- OP names this command, but a must-be-zero bit of A or B is set (R92) -/
  | mustBeZero (mnemonic : String)
deriving DecidableEq, Repr

/-- One row of the opcode map (R93): the opcode, the bits of A and of B that must be zero, and the
command its operands make. -/
structure OpRow where
  op : BitVec 8
  mnemonic : String
  aZero : BitVec 8
  bZero : BitVec 16
  build : BitVec 8 → BitVec 16 → Instr

/-- Rows 0x00 to 0x0F of R93. -/
def controlRows : List OpRow :=
  [ ⟨0x00#8, "NOP", 0xFF#8, 0xFFFF#16, fun _ _ => .nop⟩,
    ⟨0x01#8, "SET_ENDIAN", 0xFE#8, 0xFFFF#16, fun a _ => .setEndian a⟩,
    ⟨0x02#8, "SET_TYPE", 0x00#8, 0xFFFF#16, fun a _ => .setType a⟩,
    ⟨0x03#8, "SET_SEQ", 0xFF#8, 0x0000#16, fun _ b => .setSeq b⟩,
    ⟨0x04#8, "SET_ERRC", 0x00#8, 0xFFFF#16, fun a _ => .setErrc a⟩,
    ⟨0x05#8, "RD_REG", 0x00#8, 0xFFFF#16, fun a _ => .rdReg a⟩,
    ⟨0x0F#8, "SRESET", 0xFF#8, 0xFFFF#16, fun _ _ => .sreset⟩ ]

/-- Rows 0x10 to 0x16 of R93. -/
def bufferRows : List OpRow :=
  [ ⟨0x10#8, "STG_CLEAR", 0xFF#8, 0xFFFF#16, fun _ _ => .stgClear⟩,
    ⟨0x11#8, "STG_PUSH", 0x00#8, 0xFFFF#16, fun a _ => .stgPush a⟩,
    ⟨0x12#8, "IN_CLEAR", 0xFF#8, 0xFFFF#16, fun _ _ => .inClear⟩,
    ⟨0x13#8, "IN_PUSH", 0x00#8, 0xFFFF#16, fun a _ => .inPush a⟩,
    ⟨0x14#8, "IN_READ", 0xFF#8, 0x0000#16, fun _ b => .inRead b⟩,
    ⟨0x15#8, "FB_READ", 0xFF#8, 0x0000#16, fun _ b => .fbRead b⟩,
    ⟨0x16#8, "LOG_READ", 0xFE#8, 0x0000#16, fun a b => .logRead a b⟩ ]

/-- Rows 0x20 to 0x2F of R93. -/
def coderRows : List OpRow :=
  [ ⟨0x20#8, "WR_BYTE", 0xFF#8, 0x0000#16, fun _ b => .wrByte b⟩,
    ⟨0x21#8, "WR_SHORT", 0xFF#8, 0x0000#16, fun _ b => .wrShort b⟩,
    ⟨0x22#8, "WR_USHORT", 0xFF#8, 0x0000#16, fun _ b => .wrUshort b⟩,
    ⟨0x23#8, "WR_INT", 0xFF#8, 0x0000#16, fun _ b => .wrInt b⟩,
    ⟨0x24#8, "WR_UINT", 0xFF#8, 0x0000#16, fun _ b => .wrUint b⟩,
    ⟨0x25#8, "WR_LONG", 0xFF#8, 0x0000#16, fun _ b => .wrLong b⟩,
    ⟨0x26#8, "WR_DOUBLE", 0xFF#8, 0x0000#16, fun _ b => .wrDouble b⟩,
    ⟨0x27#8, "WR_STRING", 0xFF#8, 0x0000#16, fun _ b => .wrString b⟩,
    ⟨0x28#8, "WR_BYTES", 0xFF#8, 0x0000#16, fun _ b => .wrBytes b⟩,
    ⟨0x29#8, "WR_BYTES_LP", 0xFF#8, 0x0000#16, fun _ b => .wrBytesLp b⟩,
    ⟨0x2E#8, "TX_BEGIN", 0xFF#8, 0xFFFF#16, fun _ _ => .txBegin⟩,
    ⟨0x2F#8, "FRAME_ENCODE", 0xFF#8, 0xFFFF#16, fun _ _ => .frameEncode⟩ ]

/-- Rows 0x30 to 0x41 of R93. -/
def decoderRows : List OpRow :=
  [ ⟨0x30#8, "RD_BYTE", 0xFF#8, 0x0000#16, fun _ b => .rdByte b⟩,
    ⟨0x31#8, "RD_SHORT", 0xFF#8, 0x0000#16, fun _ b => .rdShort b⟩,
    ⟨0x32#8, "RD_USHORT", 0xFF#8, 0x0000#16, fun _ b => .rdUshort b⟩,
    ⟨0x33#8, "RD_INT", 0xFF#8, 0x0000#16, fun _ b => .rdInt b⟩,
    ⟨0x34#8, "RD_UINT", 0xFF#8, 0x0000#16, fun _ b => .rdUint b⟩,
    ⟨0x35#8, "RD_LONG", 0xFF#8, 0x0000#16, fun _ b => .rdLong b⟩,
    ⟨0x36#8, "RD_DOUBLE", 0xFF#8, 0x0000#16, fun _ b => .rdDouble b⟩,
    ⟨0x37#8, "RD_STRING", 0xFF#8, 0x0000#16, fun _ b => .rdString b⟩,
    ⟨0x38#8, "RD_BYTES", 0xFF#8, 0x0000#16, fun _ b => .rdBytes b⟩,
    ⟨0x39#8, "RD_BYTES_LP", 0xFF#8, 0x0000#16, fun _ b => .rdBytesLp b⟩,
    ⟨0x3E#8, "FRAME_DECODE", 0xFF#8, 0xFFFF#16, fun _ _ => .frameDecode⟩,
    ⟨0x40#8, "FAC_REGISTER", 0x00#8, 0x0000#16, fun a b => .facRegister a b⟩,
    ⟨0x41#8, "FAC_DISPATCH", 0xFF#8, 0xFFFF#16, fun _ _ => .facDispatch⟩ ]

/-- The opcode map (R93): 39 rows, no two with one opcode. -/
def opRows : List OpRow := controlRows ++ bufferRows ++ coderRows ++ decoderRows

/-- A word is the command of the row its OP selects, unless a must-be-zero bit is set (R92, R95). -/
def decode (w : BitVec 32) : Except DecodeError Instr :=
  match opRows.find? (fun r => r.op == wordOp w) with
  | none => .error (.unassigned (wordOp w))
  | some r =>
    if wordA w &&& r.aZero = 0#8 ∧ wordB w &&& r.bZero = 0#16
    then .ok (r.build (wordA w) (wordB w))
    else .error (.mustBeZero r.mnemonic)

/-- The instruction the decoder reads from the low `nbits` bits of `w`; every command word is exactly
32 bits (R96), so the bits above `nbits` are zero. -/
def decodeTableWord (nbits w : Nat) : Option Instr :=
  (decode (BitVec.ofNat 32 (w % 2 ^ nbits))).toOption

/-- The command word of an instruction, a field it does not use zero (R92, R93). -/
def encode : Instr → BitVec 32
  | .nop => commandWord 0x00#8 0#8 0#16
  | .setEndian a => commandWord 0x01#8 a 0#16
  | .setType t => commandWord 0x02#8 t 0#16
  | .setSeq n => commandWord 0x03#8 0#8 n
  | .setErrc e => commandWord 0x04#8 e 0#16
  | .rdReg r => commandWord 0x05#8 r 0#16
  | .sreset => commandWord 0x0F#8 0#8 0#16
  | .stgClear => commandWord 0x10#8 0#8 0#16
  | .stgPush b => commandWord 0x11#8 b 0#16
  | .inClear => commandWord 0x12#8 0#8 0#16
  | .inPush b => commandWord 0x13#8 b 0#16
  | .inRead i => commandWord 0x14#8 0#8 i
  | .fbRead i => commandWord 0x15#8 0#8 i
  | .logRead a k => commandWord 0x16#8 a k
  | .wrByte e => commandWord 0x20#8 0#8 e
  | .wrShort e => commandWord 0x21#8 0#8 e
  | .wrUshort e => commandWord 0x22#8 0#8 e
  | .wrInt e => commandWord 0x23#8 0#8 e
  | .wrUint e => commandWord 0x24#8 0#8 e
  | .wrLong e => commandWord 0x25#8 0#8 e
  | .wrDouble e => commandWord 0x26#8 0#8 e
  | .wrString e => commandWord 0x27#8 0#8 e
  | .wrBytes e => commandWord 0x28#8 0#8 e
  | .wrBytesLp e => commandWord 0x29#8 0#8 e
  | .txBegin => commandWord 0x2E#8 0#8 0#16
  | .frameEncode => commandWord 0x2F#8 0#8 0#16
  | .rdByte e => commandWord 0x30#8 0#8 e
  | .rdShort e => commandWord 0x31#8 0#8 e
  | .rdUshort e => commandWord 0x32#8 0#8 e
  | .rdInt e => commandWord 0x33#8 0#8 e
  | .rdUint e => commandWord 0x34#8 0#8 e
  | .rdLong e => commandWord 0x35#8 0#8 e
  | .rdDouble e => commandWord 0x36#8 0#8 e
  | .rdString e => commandWord 0x37#8 0#8 e
  | .rdBytes e => commandWord 0x38#8 0#8 e
  | .rdBytesLp e => commandWord 0x39#8 0#8 e
  | .frameDecode => commandWord 0x3E#8 0#8 0#16
  | .facRegister t h => commandWord 0x40#8 t h
  | .facDispatch => commandWord 0x41#8 0#8 0#16

end Sys2Proof
end

