-- ==== Sys2Proof/Config.lean ====
section
/-! DEFINITION. What is fixed for one machine: the sizes of 00_scope.md R7 and R8, the open parameter
LOG_CAP, and the free value of bytes that no rule lets a command read. -/

namespace Sys2Proof.Config

/-- HDR_SIZE (00_scope.md R7). -/
abbrev hdrSize : Nat := 8

/-- INIT_BYTE (00_scope.md R7). -/
abbrev initByte : Byte := 0x45#8

/-- MAX_FRAME (00_scope.md R7). -/
abbrev maxFrame : Nat := 2500

/-- PAYLOAD_MAX = MAX_FRAME - HDR_SIZE - 1 (00_scope.md R7). -/
abbrev payloadMax : Nat := 2491

/-- The capacities IBUF_CAP, OBUF_CAP, FBUF_CAP and STAGE_CAP (00_scope.md R8). -/
def capacity : Space → Nat
  | .ibuf  => 2500
  | .obuf  => 2491
  | .fbuf  => 2500
  | .stage => 2491

/-- How far LOG_CAP lies above its lower bound; a free value (DESIGN CHOICE, notes/assumptions/4.md). -/
opaque logSlack : Fin 63045

/-- LOG_CAP, OPEN: any value from 2491 to 65535 (00_scope.md R8, 92_eei_decisions.md D10). -/
def logCap : Nat := logSlack.val + 2491

/-- What an address at or above a buffer's length holds: "any value (unobservable)"
(93_implementation_defined.md item 25). A free value (DESIGN CHOICE, notes/assumptions/3.md). -/
opaque strayByte : Space → Nat → Byte

end Sys2Proof.Config
end

