-- ==== Sys2Proof/Machine/State.lean ====
section
/-! DEFINITION. The state of the block (10_state.md R20), the command port, the outcomes' reasons and
the state after reset (70_reset_and_hazards.md R320). -/

namespace Sys2Proof.Machine

/-- What the host presents together as one command (10_state.md R21). -/
structure Command where
  /-- the command word -/
  cmd : BitVec 32
  /-- the scalar value of a write, or the length of RD_BYTES -/
  din : BitVec 64
  /-- the field-name label a field command logs -/
  name : BitVec 32
deriving DecidableEq, Repr

/-- What the block returns together as one response (10_state.md R21, R37). -/
structure Response where
  status : BitVec 32
  dout : BitVec 64
  daux : BitVec 16
deriving DecidableEq, Repr

/-- A move of the host: the only two ways it acts on the block (60_exceptions.md R300). -/
inductive HostMove where
  /-- it issues a command -/
  | command (c : Command)
  /-- the reset event (70_reset_and_hazards.md R320) -/
  | reset
deriving DecidableEq, Repr

/-- The cause codes of 60_exceptions.md R280, as names; `Cause.code` gives the numbers. -/
inductive Cause where
  /-- the command succeeded -/
  | ok
  /-- E_FMT_SHORT: fewer input bytes than a header -/
  | fmtShort
  /-- E_FMT_INIT: wrong init byte -/
  | fmtInit
  /-- E_FMT_HCK: header checksum mismatch -/
  | fmtHck
  /-- E_FMT_SIZE: data size above 2491 -/
  | fmtSize
  /-- E_FMT_TRUNC: declared data size exceeds the available bytes -/
  | fmtTrunc
  /-- E_FMT_DCK: data checksum mismatch -/
  | fmtDck
  /-- E_UNSUPPORTED: reserved, never raised (R289) -/
  | unsupported
  /-- E_BOUNDS: a read past the payload, a buffer or a log -/
  | bounds
  /-- E_OVERFLOW: a write past the payload bound, a full log or a full buffer -/
  | overflow
  /-- E_RANGE: an operand does not fit the field's type -/
  | range
  /-- E_STATE: the session is not open, or is poisoned -/
  | state
  /-- E_ILLEGAL: no legal command, or no such register -/
  | illegal
deriving DecidableEq, Repr

/-- A field-log record (10_state.md R34). INDEX is its 1-based position and is not stored. -/
structure Record where
  name : BitVec 32
  elem : BitVec 16
  size : BitVec 16
  type : FieldType
deriving DecidableEq, Repr

/-- A registry entry {V, H} (10_state.md R33). -/
structure RegEntry where
  valid : Bool
  handler : BitVec 16
deriving DecidableEq, Repr

/-- The byte spaces of 20_memory.md R60, each as the list of the bytes it holds, so that its length is
the list's (10_state.md R26; notes/assumptions/3.md). -/
structure Memory where
  ibuf : List Byte
  obuf : List Byte
  fbuf : List Byte
  stage : List Byte
deriving DecidableEq, Repr

/-- The TX channel: header registers (10_state.md R24), session (R25), the last frame's checksums (R27)
and the field log (R34). -/
structure Tx where
  typeTag : Byte
  seq : BitVec 16
  errc : Byte
  active : Bool
  endian : Endian
  err : BitVec 8
  hck : Byte
  dck : Byte
  log : List Record
deriving DecidableEq, Repr

/-- The RX channel: session (10_state.md R30), decoded header (R31), cursor (R32) and field log (R34). -/
structure Rx where
  valid : Bool
  endian : Endian
  err : BitVec 8
  typeTag : Byte
  seq : BitVec 16
  errc : Byte
  dsize : BitVec 16
  hck : Byte
  dck : Byte
  off : BitVec 16
  endOff : BitVec 16
  log : List Record
deriving DecidableEq, Repr

/-- The last-dispatch registers (10_state.md R35). -/
structure Fac where
  done : Bool
  tag : Byte
  found : Bool
  handler : BitVec 16
deriving DecidableEq, Repr

/-- The block's state (10_state.md R20) and, beside it, the command port: `pending` holds the host's
moves to come, the head being the one at the port (notes/assumptions/1.md), and `response` what the
step just made answered (notes/assumptions/2.md). -/
structure State where
  cfgEndian : Endian
  tx : Tx
  rx : Rx
  mem : Memory
  registry : Vector RegEntry 256
  fac : Fac
  pending : List HostMove
  response : Option Response
deriving DecidableEq, Repr

/-- Why a step ends in a fault: for no reason. Every failure of the block is a step with a response
(60_exceptions.md R299), so this type is closed and empty. -/
inductive Fault where
deriving DecidableEq, Repr

/-- Why a step is refused. -/
inductive Refusal where
  /-- Raised by an arm of `exec` for an instruction that has no meaning yet; safe. No arm raises it. -/
  | notModelled (mnemonic : String)
deriving DecidableEq, Repr

/-- The TX channel at reset (10_state.md R24, R25, R27, R34). -/
def Tx.reset : Tx where
  typeTag := 0
  seq := 0
  errc := 0
  active := false
  endian := .little
  err := 0
  hck := 0
  dck := 0
  log := []

/-- The RX channel at reset (10_state.md R30, R31, R32, R34). -/
def Rx.reset : Rx where
  valid := false
  endian := .little
  err := 0
  typeTag := 0
  seq := 0
  errc := 0
  dsize := 0
  hck := 0
  dck := 0
  off := 0
  endOff := 0
  log := []

/-- The machine right after reset (70_reset_and_hazards.md R320), with nothing at the port. -/
def State.reset : State where
  cfgEndian := .little
  tx := Tx.reset
  rx := Rx.reset
  mem := { ibuf := [], obuf := [], fbuf := [], stage := [] }
  registry := Vector.replicate 256 { valid := false, handler := 0 }
  fac := { done := false, tag := 0, found := false, handler := 0 }
  pending := []
  response := none

end Sys2Proof.Machine
end

