-- ==== Sys2Proof/Machine/Flags.lean ====
section
/-! DEFINITION. The cause numbers (60_exceptions.md R280) and the STATUS word (10_state.md R37). -/

namespace Sys2Proof.Machine

/-- The number of a cause (60_exceptions.md R280). -/
def Cause.code : Cause → BitVec 8
  | .ok          => 0x00#8
  | .fmtShort    => 0x01#8
  | .fmtInit     => 0x02#8
  | .fmtHck      => 0x03#8
  | .fmtSize     => 0x04#8
  | .fmtTrunc    => 0x05#8
  | .fmtDck      => 0x06#8
  | .unsupported => 0x07#8
  | .bounds      => 0x08#8
  | .overflow    => 0x09#8
  | .range       => 0x0A#8
  | .state       => 0x0B#8
  | .illegal     => 0x0C#8

/-- A selector or flag of one bit. -/
def bit (b : Bool) : BitVec 1 := BitVec.ofBool b

/-- TXP: TX.ERR != 0 (10_state.md R37). -/
def Tx.poisoned (tx : Tx) : Bool := tx.err != 0#8

/-- RXP: RX.ERR != 0 (10_state.md R37). -/
def Rx.poisoned (rx : Rx) : Bool := rx.err != 0#8

/-- The STATUS word (10_state.md R37), the flags read from the channels after the command: bits [31:13]
zero, [12] RXP, [11] RXV, [10] TXP, [9] TXA, [8] NOHANDLER, [7:0] CAUSE. -/
def statusWord (cause : Cause) (noHandler : Bool) (tx : Tx) (rx : Rx) : BitVec 32 :=
  place 32 12 (bit rx.poisoned) ||| place 32 11 (bit rx.valid) ||| place 32 10 (bit tx.poisoned) |||
    place 32 9 (bit tx.active) ||| place 32 8 (bit noHandler) ||| place 32 0 cause.code

end Sys2Proof.Machine
end

