-- ==== Sys2Proof/Machine/Operands.lean ====
section
/-! DEFINITION. How operand bits become values and back: selectors, type codes and widths
(00_scope.md R15), operand ranges (41_field_coder.md R163), widening of read values
(42_field_decoder.md R191), byte order (20_memory.md R61) and the XOR checksum (40_frame_codec.md R130). -/

namespace Sys2Proof.Machine

/-- The byte order a selector bit names: 0 LITTLE, 1 BIG (10_state.md R23). -/
def endianOfBit (b : Bool) : Endian := if b then .big else .little

/-- The selector bit of a byte order (10_state.md R23). -/
def endianBit : Endian → BitVec 1
  | .little => 0#1
  | .big    => 1#1

/-- The type codes (00_scope.md R15). -/
def typeCode : FieldType → BitVec 4
  | .byte      => 0#4
  | .short     => 1#4
  | .ushort    => 2#4
  | .int       => 3#4
  | .uint      => 4#4
  | .long      => 5#4
  | .double    => 6#4
  | .string    => 7#4
  | .byteArray => 8#4

/-- The wire bytes of a scalar type (00_scope.md R15); the two variable-length types have no fixed width. -/
def scalarWidth : FieldType → Nat
  | .byte      => 1
  | .short     => 2
  | .ushort    => 2
  | .int       => 4
  | .uint      => 4
  | .long      => 8
  | .double    => 8
  | .string    => 0
  | .byteArray => 0

/-- Whether DIN holds a value of the scalar type (41_field_coder.md R163). -/
def inRange (t : FieldType) (din : BitVec 64) : Bool :=
  match t with
  | .byte      => din.extractLsb' 8 56 == 0#56
  | .short     => din == (din.extractLsb' 0 16).signExtend 64
  | .ushort    => din.extractLsb' 16 48 == 0#48
  | .int       => din == (din.extractLsb' 0 32).signExtend 64
  | .uint      => din.extractLsb' 32 32 == 0#32
  | .long      => true
  | .double    => true
  | .string    => true
  | .byteArray => true

/-- EXT_t: the value read widened to 64 bits by its type's signedness (42_field_decoder.md R191). -/
def extend (t : FieldType) (v : Nat) : BitVec 64 :=
  match t with
  | .byte      => (BitVec.ofNat 8 v).setWidth 64
  | .short     => (BitVec.ofNat 16 v).signExtend 64
  | .ushort    => (BitVec.ofNat 16 v).setWidth 64
  | .int       => (BitVec.ofNat 32 v).signExtend 64
  | .uint      => (BitVec.ofNat 32 v).setWidth 64
  | .long      => BitVec.ofNat 64 v
  | .double    => BitVec.ofNat 64 v
  | .string    => BitVec.ofNat 64 v
  | .byteArray => BitVec.ofNat 64 v

/-- The low `w` bytes of `v`, least significant first. -/
def encLittle : Nat → Nat → List Byte
  | 0, _ => []
  | w + 1, v => BitVec.ofNat 8 v :: encLittle w (v / 256)

/-- The value of a byte sequence whose first byte is the least significant. -/
def decLittle : List Byte → Nat
  | [] => 0
  | b :: bs => b.toNat + 256 * decLittle bs

/-- `enc(E, v, w)`: the `w` bytes of the `8w`-bit value `v` in byte order `E` (20_memory.md R61). -/
def enc (e : Endian) (v w : Nat) : List Byte :=
  match e with
  | .little => encLittle w v
  | .big    => (encLittle w v).reverse

/-- `dec(E, bs)`: the unsigned value of `bs` in byte order `E` (20_memory.md R61). -/
def dec (e : Endian) (bs : List Byte) : Nat :=
  match e with
  | .little => decLittle bs
  | .big    => decLittle bs.reverse

/-- The checksum: the XOR of every byte, starting from 0x00 (40_frame_codec.md R130). -/
def xor8 (bs : List Byte) : Byte := bs.foldl (fun x b => x ^^^ b) 0#8

/-- A sequence with its 16-bit length before it (41_field_coder.md R171, R173). -/
def lengthPrefixed (e : Endian) (bs : List Byte) : List Byte := enc e bs.length 2 ++ bs

end Sys2Proof.Machine
end

