-- ==== Sys2Proof/Machine/Ops.lean ====
section
/-! DEFINITION. The named operations the meanings are written with: the byte spaces (20_memory.md R60),
the end of a command with its response (30_encoding.md R104), the raising of an error (60_exceptions.md
R284), RX_CLEAR (10_state.md R41), and the common procedures of the field coder (41_field_coder.md R161)
and the field decoder (42_field_decoder.md R191). -/

namespace Sys2Proof.Machine

/-- What a meaning answers. -/
abbrev Result := Host.Outcome State Fault Refusal

/-- The bytes a space holds. -/
def Memory.get (m : Memory) : Space → List Byte
  | .ibuf  => m.ibuf
  | .obuf  => m.obuf
  | .fbuf  => m.fbuf
  | .stage => m.stage

/-- A space given new contents, and so a new length. -/
def Memory.set (m : Memory) (sp : Space) (bs : List Byte) : Memory :=
  match sp with
  | .ibuf  => { m with ibuf := bs }
  | .obuf  => { m with obuf := bs }
  | .fbuf  => { m with fbuf := bs }
  | .stage => { m with stage := bs }

/-- The current length of a space: IN.LEN, TX.OLEN, FB.LEN or STG.LEN (20_memory.md R60). -/
def Memory.len (m : Memory) (sp : Space) : Nat := (m.get sp).length

/-- The append of 20_memory.md R60: bytes written at exactly the current length, which grows by them. -/
def Memory.push (m : Memory) (sp : Space) (bs : List Byte) : Memory := m.set sp (m.get sp ++ bs)

/-- What a space holds at an address, nothing at or above its length (20_memory.md R60). -/
def Memory.byte? (m : Memory) (sp : Space) (a : Nat) : Option Byte := (m.get sp)[a]?

/-- `BUF[a]`; at or above the length, where no rule reads, a free value (notes/assumptions/3.md). -/
def Memory.byte (m : Memory) (sp : Space) (a : Nat) : Byte := (m.byte? sp a).getD (Config.strayByte sp a)

/-- The `n` bytes from address `a` on, the list being those from `a` to the space's end. -/
def readFrom (sp : Space) : Nat → Nat → List Byte → List Byte
  | _, 0, _ => []
  | a, n + 1, [] => Config.strayByte sp a :: readFrom sp (a + 1) n []
  | a, n + 1, b :: bs => b :: readFrom sp (a + 1) n bs

/-- `MemRead(BUF, a, n)` (00_scope.md R11). -/
def Memory.read (m : Memory) (sp : Space) (a n : Nat) : List Byte := readFrom sp a n ((m.get sp).drop a)

/-- The canonical form of the memory: no space holds more bytes than its capacity (10_state.md R39).
A byte list has one form only, so equal memories are equal data (notes/assumptions/3.md). -/
def Memory.wf (m : Memory) : Bool :=
  decide (m.len .ibuf ≤ Config.capacity .ibuf) && decide (m.len .obuf ≤ Config.capacity .obuf) &&
    (decide (m.len .fbuf ≤ Config.capacity .fbuf) && decide (m.len .stage ≤ Config.capacity .stage))

/-- The bytes from address `a` on as (address, byte) pairs. -/
def cellsFrom : Nat → List Byte → List Host.Cell
  | _, [] => []
  | a, b :: bs => (a, b) :: cellsFrom (a + 1) bs

/-- A space as the list of (address, byte) pairs it holds. -/
def Memory.cells (m : Memory) (sp : Space) : List Host.Cell := cellsFrom 0 (m.get sp)

/-- The command at the port; with none there, all its bits are zero (notes/assumptions/6.md). -/
def State.command (s : State) : Command :=
  match s.pending with
  | .command c :: _ => c
  | .reset :: _ => { cmd := 0, din := 0, name := 0 }
  | [] => { cmd := 0, din := 0, name := 0 }

/-- DIN of the command at the port (10_state.md R21). -/
def State.din (s : State) : BitVec 64 := s.command.din

/-- NAME of the command at the port (10_state.md R21). -/
def State.name (s : State) : BitVec 32 := s.command.name

/-- The end of a command: the response with STATUS from the state as the command leaves it
(10_state.md R37), and the command leaves the port. -/
def State.finish (s : State) (cause : Cause) (noHandler : Bool) (dout : BitVec 64) (daux : BitVec 16) : State :=
  { s with
    response := some { status := statusWord cause noHandler s.tx s.rx, dout := dout, daux := daux }
    pending := s.pending.tail }

/-- `respond(DOUT, DAUX)`: the command succeeds (00_scope.md R11, 30_encoding.md R104). -/
def State.respond (s : State) (dout : BitVec 64) (daux : BitVec 16) : Result :=
  .next (s.finish .ok false dout daux)

/-- The distinguishable "no handler" result of FAC_DISPATCH (43_factory.md R221). -/
def State.respondNoHandler (s : State) : Result := .next (s.finish .ok true 0 0)

/-- `raise Error(c)`, the block's "trap entry" (60_exceptions.md R284): `s` holds the writes that stand
on error, the cause goes into STATUS, DOUT and DAUX are 0, and nothing is saved anywhere else. -/
def State.raise (s : State) (c : Cause) : Result := .next (s.finish c false 0 0)

/-- The same for a FAC_DISPATCH that found a handler: DOUT is FAC.HANDLER and DAUX is 1 (R284). -/
def State.raiseDispatched (s : State) (c : Cause) : Result :=
  .next (s.finish c false (s.fac.handler.setWidth 64) 1)

/-- RX_CLEAR on the RX channel (10_state.md R41): RX.ENDIAN alone is kept. -/
def Rx.cleared (rx : Rx) : Rx := { Rx.reset with endian := rx.endian }

/-- RX_CLEAR (10_state.md R41). -/
def State.rxClear (s : State) : State := { s with rx := s.rx.cleared }

/-- TX.ERR <- c, the one write of `poison` that stands (41_field_coder.md R161). -/
def State.setTxErr (s : State) (c : Cause) : State := { s with tx := { s.tx with err := c.code } }

/-- `poison(c)` (41_field_coder.md R161). -/
def State.poison (s : State) (c : Cause) : Result := (s.setTxErr c).raise c

/-- RX.ERR <- c and RX.VALID <- 0, the two writes of `rpoison` that stand (42_field_decoder.md R191). -/
def State.setRxErr (s : State) (c : Cause) : State :=
  { s with rx := { s.rx with err := c.code, valid := false } }

/-- `rpoison(c)` (42_field_decoder.md R191). -/
def State.rpoison (s : State) (c : Cause) : Result := (s.setRxErr c).raise c

/-- Whether SESSION_CHECK fails: no session open, or a poisoned one (41_field_coder.md R161). -/
def State.txClosed (s : State) : Bool := !s.tx.active || s.tx.poisoned

/-- The writes of WRITE_FIELD: the bytes go to OBUF, one record to TX.LOG (41_field_coder.md R161). -/
def State.appendField (s : State) (t : FieldType) (elem : BitVec 16) (bs : List Byte) : State :=
  { s with
    mem := s.mem.push .obuf bs
    tx := { s.tx with
      log := s.tx.log ++ [{ name := s.name, elem := elem, size := BitVec.ofNat 16 bs.length, type := t }] } }

/-- CAPACITY_CHECK, then WRITE_FIELD (41_field_coder.md R161, R162). -/
def writeField (t : FieldType) (elem : BitVec 16) (bs : List Byte) (s : State) : Result :=
  if Config.payloadMax < s.mem.len .obuf + bs.length then s.poison .overflow
  else if s.tx.log.length = Config.logCap then s.poison .overflow
  else (s.appendField t elem bs).respond 0 0

/-- SCALAR(t, w) (41_field_coder.md section 3): the session check, the operand check (R163), the rest. -/
def writeScalar (t : FieldType) (elem : BitVec 16) (s : State) : Result :=
  if s.txClosed then s.raise .state
  else if inRange t s.din then writeField t elem (enc s.tx.endian s.din.toNat (scalarWidth t)) s
  else s.poison .range

/-- A variable-length write: the session check, then the field's bytes (41_field_coder.md section 4). -/
def writeBytes (t : FieldType) (elem : BitVec 16) (bs : List Byte) (s : State) : Result :=
  if s.txClosed then s.raise .state else writeField t elem bs s

/-- CONSUME: the cursor moves past `n` bytes, one record goes to RX.LOG (42_field_decoder.md R191). -/
def State.consume (s : State) (t : FieldType) (elem : BitVec 16) (n : Nat) : State :=
  { s with
    rx := { s.rx with
      off := BitVec.ofNat 16 (s.rx.off.toNat + n)
      log := s.rx.log ++ [{ name := s.name, elem := elem, size := BitVec.ofNat 16 n, type := t }] } }

/-- BOUNDS(n), then CONSUME, then the response (42_field_decoder.md R191, R192). -/
def readField (t : FieldType) (elem : BitVec 16) (n : Nat) (dout : BitVec 64) (daux : BitVec 16) (s : State) :
    Result :=
  if s.rx.endOff.toNat < s.rx.off.toNat + n then s.rpoison .bounds
  else if s.rx.log.length = Config.logCap then s.rpoison .overflow
  else (s.consume t elem n).respond dout daux

/-- The unsigned value of the `n` bytes at the cursor, in the session's byte order. -/
def State.cursorValue (s : State) (n : Nat) : Nat :=
  dec s.rx.endian (s.mem.read .ibuf s.rx.off.toNat n)

/-- SCALAR_RD(t, w) (42_field_decoder.md R191). -/
def readScalar (t : FieldType) (elem : BitVec 16) (s : State) : Result :=
  if s.rx.valid then readField t elem (scalarWidth t) (extend t (s.cursorValue (scalarWidth t))) 0 s
  else s.raise .state

/-- The length-prefixed read of RD_STRING and RD_BYTES_LP (42_field_decoder.md R201, R203): the prefix
must lie in the payload, then the prefix and the data together are one field. -/
def readPrefixed (t : FieldType) (elem : BitVec 16) (s : State) : Result :=
  if s.rx.valid then
    if s.rx.endOff.toNat < s.rx.off.toNat + 2 then s.rpoison .bounds
    else
      readField t elem (2 + s.cursorValue 2) (BitVec.ofNat 64 (s.cursorValue 2))
        (BitVec.ofNat 16 (s.rx.off.toNat + 2)) s
  else s.raise .state

/-- Every state element of the block at its reset value (70_reset_and_hazards.md R320); the port is not
state of the block and keeps the host's moves. -/
def State.resetBlock (s : State) : State := { State.reset with pending := s.pending }

end Sys2Proof.Machine
end

