-- ==== Sys2Proof/Machine/Buffers.lean ====
section
/-! DEFINITION. The buffer family (45_buffers.md). -/

namespace Sys2Proof.Machine

/-- STG_CLEAR (R260): STG.LEN <- 0. -/
def execStgClear (s : State) : Result := ({ s with mem := s.mem.set .stage [] }).respond 0 0

/-- STG_PUSH (R261): append A to STAGE; E_OVERFLOW, not sticky, when it is full. -/
def execStgPush (byte : Byte) (s : State) : Result :=
  if s.mem.len .stage = Config.capacity .stage then s.raise .overflow
  else ({ s with mem := s.mem.push .stage [byte] }).respond 0 0

/-- IN_CLEAR (R262): IN.LEN <- 0, then RX_CLEAR. -/
def execInClear (s : State) : Result := ({ s with mem := s.mem.set .ibuf [] }).rxClear.respond 0 0

/-- IN_PUSH (R263): append A to IBUF, then RX_CLEAR; E_OVERFLOW, not sticky, when it is full. -/
def execInPush (byte : Byte) (s : State) : Result :=
  if s.mem.len .ibuf = Config.capacity .ibuf then s.raise .overflow
  else ({ s with mem := s.mem.push .ibuf [byte] }).rxClear.respond 0 0

/-- The byte of a space at an index, or E_BOUNDS, not sticky (R264, R265). -/
def readIndexed (sp : Space) (index : BitVec 16) (s : State) : Result :=
  match s.mem.byte? sp index.toNat with
  | some b => s.respond (b.setWidth 64) 0
  | none => s.raise .bounds

/-- IN_READ (R264). -/
def execInRead (index : BitVec 16) (s : State) : Result := readIndexed .ibuf index s

/-- FB_READ (R265). -/
def execFbRead (index : BitVec 16) (s : State) : Result := readIndexed .fbuf index s

/-- The main result of LOG_READ: NAME in [63:32], SIZE in [31:16], ELEM in [15:0] (30_encoding.md R103). -/
def recordWord (r : Record) : BitVec 64 :=
  place 64 32 r.name ||| place 64 16 r.size ||| place 64 0 r.elem

/-- The record with the 1-based index `k` (10_state.md R34). -/
def logRecord (log : List Record) (k : BitVec 16) : Option Record :=
  if k = 0#16 then none else log[k.toNat - 1]?

/-- LOG_READ (R266): A[0] selects TX.LOG or RX.LOG; E_BOUNDS, not sticky, for index 0 or one past the
log; E_ILLEGAL when A[7:1] is not zero. -/
def execLogRead (a : BitVec 8) (index : BitVec 16) (s : State) : Result :=
  if selectorOk a then
    match logRecord (if a.getLsbD 0 then s.rx.log else s.tx.log) index with
    | some r => s.respond (recordWord r) ((typeCode r.type).setWidth 16)
    | none => s.raise .bounds
  else s.raise .illegal

end Sys2Proof.Machine
end

