-- ==== Sys2Proof/Machine/Coder.lean ====
section
/-! DEFINITION. The field coder family (41_field_coder.md). -/

namespace Sys2Proof.Machine

/-- The session TX_BEGIN opens (R160): clean, in the byte order CFG.ENDIAN selects, nothing logged. -/
def Tx.begun (tx : Tx) (e : Endian) : Tx := { tx with active := true, endian := e, err := 0, log := [] }

/-- TX_BEGIN (R160). -/
def execTxBegin (s : State) : Result :=
  ({ s with tx := s.tx.begun s.cfgEndian, mem := s.mem.set .obuf [] }).respond 0 0

/-- WR_BYTE (R164). -/
def execWrByte (elem : BitVec 16) (s : State) : Result := writeScalar .byte elem s

/-- WR_SHORT (R165). -/
def execWrShort (elem : BitVec 16) (s : State) : Result := writeScalar .short elem s

/-- WR_USHORT (R166). -/
def execWrUshort (elem : BitVec 16) (s : State) : Result := writeScalar .ushort elem s

/-- WR_INT (R167). -/
def execWrInt (elem : BitVec 16) (s : State) : Result := writeScalar .int elem s

/-- WR_UINT (R168). -/
def execWrUint (elem : BitVec 16) (s : State) : Result := writeScalar .uint elem s

/-- WR_LONG (R169). -/
def execWrLong (elem : BitVec 16) (s : State) : Result := writeScalar .long elem s

/-- WR_DOUBLE (R170): the 64-bit pattern, uninterpreted. -/
def execWrDouble (elem : BitVec 16) (s : State) : Result := writeScalar .double elem s

/-- WR_STRING (R171): the staged bytes after their 16-bit length. -/
def execWrString (elem : BitVec 16) (s : State) : Result :=
  writeBytes .string elem (lengthPrefixed s.tx.endian s.mem.stage) s

/-- WR_BYTES (R172): the staged bytes alone. -/
def execWrBytes (elem : BitVec 16) (s : State) : Result := writeBytes .byteArray elem s.mem.stage s

/-- WR_BYTES_LP (R173): WR_STRING's wire form, logged as BYTEARRAY. -/
def execWrBytesLp (elem : BitVec 16) (s : State) : Result :=
  writeBytes .byteArray elem (lengthPrefixed s.tx.endian s.mem.stage) s

end Sys2Proof.Machine
end

