-- ==== Sys2Proof/Machine/Registers.lean ====
section
/-! DEFINITION. The register map that RD_REG reads (10_state.md R36). -/

namespace Sys2Proof.Machine

/-- A length or a count as a 16-bit register. -/
def count16 (n : Nat) : BitVec 64 := (BitVec.ofNat 16 n).setWidth 64

/-- The bits of TX_CTRL and RX_CTRL: [0] the session bit, [1] the byte order, [15:8] the sticky error. -/
def ctrlBits (flag : Bool) (e : Endian) (err : BitVec 8) : BitVec 64 :=
  place 64 8 err ||| place 64 1 (endianBit e) ||| place 64 0 (bit flag)

/-- FAC_LAST: [7:0] TAG, [8] FOUND, [9] DONE, [31:16] HANDLER. -/
def facBits (f : Fac) : BitVec 64 :=
  place 64 16 f.handler ||| place 64 9 (bit f.done) ||| place 64 8 (bit f.found) ||| place 64 0 f.tag

/-- The register with number `r`, zero-extended to 64 bits, or none where the map has no register
(10_state.md R36, 44_control.md R245). -/
def regValue (s : State) (r : BitVec 8) : Option (BitVec 64) :=
  match r.toNat with
  | 0x00 => some ((endianBit s.cfgEndian).setWidth 64)
  | 0x01 => some (s.tx.typeTag.setWidth 64)
  | 0x02 => some (s.tx.seq.setWidth 64)
  | 0x03 => some (s.tx.errc.setWidth 64)
  | 0x04 => some (ctrlBits s.tx.active s.tx.endian s.tx.err)
  | 0x05 => some (count16 (s.mem.len .obuf))
  | 0x06 => some (count16 s.tx.log.length)
  | 0x07 => some (s.tx.hck.setWidth 64)
  | 0x08 => some (s.tx.dck.setWidth 64)
  | 0x09 => some (count16 (s.mem.len .fbuf))
  | 0x0A => some (count16 (s.mem.len .stage))
  | 0x0B => some (count16 (s.mem.len .ibuf))
  | 0x10 => some (ctrlBits s.rx.valid s.rx.endian s.rx.err)
  | 0x11 => some (s.rx.typeTag.setWidth 64)
  | 0x12 => some (s.rx.seq.setWidth 64)
  | 0x13 => some (s.rx.errc.setWidth 64)
  | 0x14 => some (s.rx.dsize.setWidth 64)
  | 0x15 => some (s.rx.hck.setWidth 64)
  | 0x16 => some (s.rx.dck.setWidth 64)
  | 0x17 => some (s.rx.off.setWidth 64)
  | 0x18 => some (s.rx.endOff.setWidth 64)
  | 0x19 => some (count16 s.rx.log.length)
  | 0x20 => some (facBits s.fac)
  | _ => none

end Sys2Proof.Machine
end

