-- ==== Sys2Proof/Machine/Control.lean ====
section
/-! DEFINITION. The control family (44_control.md). -/

namespace Sys2Proof.Machine

/-- NOP (R240). -/
def execNop (s : State) : Result := s.respond 0 0

/-- SET_ENDIAN (R241): CFG.ENDIAN <- A[0]; E_ILLEGAL when A[7:1] is not zero. -/
def execSetEndian (a : BitVec 8) (s : State) : Result :=
  if selectorOk a then ({ s with cfgEndian := endianOfBit (a.getLsbD 0) }).respond 0 0
  else s.raise .illegal

/-- SET_TYPE (R242): TX.TYPE <- A. -/
def execSetType (tag : Byte) (s : State) : Result := ({ s with tx := { s.tx with typeTag := tag } }).respond 0 0

/-- SET_SEQ (R243): TX.SEQ <- B. -/
def execSetSeq (seq : BitVec 16) (s : State) : Result := ({ s with tx := { s.tx with seq := seq } }).respond 0 0

/-- SET_ERRC (R244): TX.ERRC <- A. -/
def execSetErrc (errc : Byte) (s : State) : Result := ({ s with tx := { s.tx with errc := errc } }).respond 0 0

/-- RD_REG (R245): the register of 10_state.md R36, or E_ILLEGAL where there is none. -/
def execRdReg (reg : BitVec 8) (s : State) : Result :=
  match regValue s reg with
  | some v => s.respond v 0
  | none => s.raise .illegal

/-- SRESET (R246). -/
def execSreset (s : State) : Result := s.resetBlock.respond 0 0

end Sys2Proof.Machine
end

