-- ==== Sys2Proof/Machine/Frame.lean ====
section
/-! DEFINITION. The frame codec family (40_frame_codec.md). -/

namespace Sys2Proof.Machine

/-- Frame bytes 0 to 6 (30_encoding.md R100): init byte, type, sequence number, error code, data size. -/
def headerBytes (e : Endian) (typeTag : Byte) (seq : BitVec 16) (errc : Byte) (n : Nat) : List Byte :=
  [Config.initByte, typeTag] ++ enc e seq.toNat 2 ++ [errc] ++ enc e n 2

/-- The frame of a payload (30_encoding.md R100, R101): the header, its checksum, and, when the payload
is not empty, the payload and its checksum. -/
def buildFrame (e : Endian) (typeTag : Byte) (seq : BitVec 16) (errc : Byte) (payload : List Byte) : List Byte :=
  let h := headerBytes e typeTag seq errc payload.length
  if payload = [] then h ++ [xor8 h] else h ++ [xor8 h] ++ payload ++ [xor8 payload]

/-- The writes of FRAME_ENCODE (R131): FBUF, FB.LEN, TX.HCK, TX.DCK and TX.ACTIVE. The checksum of an
empty payload is 0x00, TX.DCK's value then. -/
def State.encodeFrame (s : State) : State :=
  { s with
    mem := s.mem.set .fbuf (buildFrame s.tx.endian s.tx.typeTag s.tx.seq s.tx.errc s.mem.obuf)
    tx := { s.tx with
      hck := xor8 (headerBytes s.tx.endian s.tx.typeTag s.tx.seq s.tx.errc s.mem.obuf.length)
      dck := xor8 s.mem.obuf
      active := false } }

/-- FRAME_ENCODE (R131). -/
def execFrameEncode (s : State) : Result :=
  if s.txClosed then s.raise .state
  else s.encodeFrame.respond (BitVec.ofNat 64 (s.encodeFrame.mem.len .fbuf)) 0

/-- The header fields of an accepted frame (10_state.md R31). -/
structure Header where
  typeTag : Byte
  seq : BitVec 16
  errc : Byte
  dsize : Nat
  hck : Byte
  dck : Byte
deriving DecidableEq, Repr

/-- Steps 4 and 5 of FRAME_DECODE for a data size `n` that passed step 3 (R132): the data checksum. -/
def checkPayload (m : Memory) (e : Endian) (n : Nat) : Except Cause Header :=
  let header (dck : Byte) : Header :=
    { typeTag := m.byte .ibuf 1, seq := BitVec.ofNat 16 (dec e (m.read .ibuf 2 2)), errc := m.byte .ibuf 4,
      dsize := n, hck := m.byte .ibuf 7, dck := dck }
  if n = 0 then .ok (header 0#8)
  else if m.len .ibuf < Config.hdrSize + n + 1 then .error .fmtTrunc
  else if xor8 (m.read .ibuf Config.hdrSize n) = m.byte .ibuf (Config.hdrSize + n) then
    .ok (header (m.byte .ibuf (Config.hdrSize + n)))
  else .error .fmtDck

/-- The frame validator: steps 1 to 5 of FRAME_DECODE in their order (R132, R133). -/
def checkFrame (m : Memory) (e : Endian) : Except Cause Header :=
  if m.len .ibuf < Config.hdrSize then .error .fmtShort
  else if m.byte .ibuf 0 ≠ Config.initByte then .error .fmtInit
  else if xor8 (m.read .ibuf 0 7) ≠ m.byte .ibuf 7 then .error .fmtHck
  else if Config.payloadMax < dec e (m.read .ibuf 5 2) then .error .fmtSize
  else checkPayload m e (dec e (m.read .ibuf 5 2))

/-- The first writes of FRAME_DECODE (R132): RX_CLEAR, then RX.ENDIAN <- CFG.ENDIAN. -/
def State.startDecode (s : State) : State := { s with rx := { s.rx.cleared with endian := s.cfgEndian } }

/-- Step 6 of FRAME_DECODE (R132): the decoded header, the cursor at the payload, the session open. -/
def State.openSession (s : State) (h : Header) : State :=
  { s with
    rx := { s.rx with
      typeTag := h.typeTag
      seq := h.seq
      errc := h.errc
      dsize := BitVec.ofNat 16 h.dsize
      hck := h.hck
      dck := h.dck
      off := BitVec.ofNat 16 Config.hdrSize
      endOff := BitVec.ofNat 16 (Config.hdrSize + h.dsize)
      valid := true } }

/-- RX.ERR <- c, the last write of a failed FRAME_DECODE (R132). -/
def State.failDecode (s : State) (c : Cause) : State := { s with rx := { s.rx with err := c.code } }

/-- The body of FRAME_DECODE (R132), which FAC_DISPATCH runs too: the state it leaves, with the data
size when the frame passed or the cause when it failed. -/
def State.decodeFrame (s : State) : State × Except Cause Nat :=
  match checkFrame s.mem s.cfgEndian with
  | .ok h => (s.startDecode.openSession h, .ok h.dsize)
  | .error c => (s.startDecode.failDecode c, .error c)

/-- FRAME_DECODE (R132). -/
def execFrameDecode (s : State) : Result :=
  match s.decodeFrame with
  | (t, .ok n) => t.respond (BitVec.ofNat 64 n) 0
  | (t, .error c) => t.raise c

end Sys2Proof.Machine
end

