-- ==== Sys2Proof/Machine/Factory.lean ====
section
/-! DEFINITION. The factory family (43_factory.md). -/

namespace Sys2Proof.Machine

/-- REG[t] (10_state.md R33). -/
def State.entry (s : State) (t : Byte) : RegEntry := s.registry.get t.toFin

/-- REG[t] <- {V: 1, H: h} (R220). -/
def State.register (s : State) (t : Byte) (h : BitVec 16) : State :=
  { s with registry := s.registry.set t.toFin { valid := true, handler := h } }

/-- FAC_REGISTER (R220). -/
def execFacRegister (tag : Byte) (handler : BitVec 16) (s : State) : Result :=
  (s.register tag handler).respond 0 0

/-- The last-dispatch registers after a lookup of `t` that gave the entry `r` (R221, 10_state.md R35). -/
def lookedUp (t : Byte) (r : RegEntry) : Fac :=
  { done := true, tag := t, found := r.valid, handler := if r.valid then r.handler else 0 }

/-- What FAC_DISPATCH does once a handler is found: the body of FRAME_DECODE, the handler reported in
DOUT whether or not it succeeds (R221, 60_exceptions.md R284). -/
def dispatchFound (s : State) : Result :=
  match s.decodeFrame with
  | (t, .ok _) => t.respond (t.fac.handler.setWidth 64) 1
  | (t, .error c) => t.raiseDispatched c

/-- FAC_DISPATCH (R221): the tag is read and looked up before any validation. -/
def execFacDispatch (s : State) : Result :=
  if s.mem.len .ibuf < Config.hdrSize then s.raise .fmtShort
  else
    let t := s.mem.byte .ibuf 1
    let looked : State := { s with fac := lookedUp t (s.entry t) }
    if (s.entry t).valid then dispatchFound looked else looked.respondNoHandler

end Sys2Proof.Machine
end

