-- ==== Sys2Proof/Machine/FieldReads.lean ====
section
/-! DEFINITION. The field decoder family (42_field_decoder.md). -/

namespace Sys2Proof.Machine

/-- RD_BYTE (R194). -/
def execRdByte (elem : BitVec 16) (s : State) : Result := readScalar .byte elem s

/-- RD_SHORT (R195). -/
def execRdShort (elem : BitVec 16) (s : State) : Result := readScalar .short elem s

/-- RD_USHORT (R196). -/
def execRdUshort (elem : BitVec 16) (s : State) : Result := readScalar .ushort elem s

/-- RD_INT (R197). -/
def execRdInt (elem : BitVec 16) (s : State) : Result := readScalar .int elem s

/-- RD_UINT (R198). -/
def execRdUint (elem : BitVec 16) (s : State) : Result := readScalar .uint elem s

/-- RD_LONG (R199). -/
def execRdLong (elem : BitVec 16) (s : State) : Result := readScalar .long elem s

/-- RD_DOUBLE (R200). -/
def execRdDouble (elem : BitVec 16) (s : State) : Result := readScalar .double elem s

/-- RD_STRING (R201). -/
def execRdString (elem : BitVec 16) (s : State) : Result := readPrefixed .string elem s

/-- RD_BYTES (R202): the length is DIN[15:0], E_RANGE when DIN[63:16] is not zero. -/
def execRdBytes (elem : BitVec 16) (s : State) : Result :=
  if s.rx.valid then
    if s.din.extractLsb' 16 48 = 0#48 then
      readField .byteArray elem (s.din.extractLsb' 0 16).toNat ((s.din.extractLsb' 0 16).setWidth 64) s.rx.off s
    else s.rpoison .range
  else s.raise .state

/-- RD_BYTES_LP (R203). -/
def execRdBytesLp (elem : BitVec 16) (s : State) : Result := readPrefixed .byteArray elem s

end Sys2Proof.Machine
end

