-- ==== Sys2Proof/Machine/Dispatch.lean ====
section
/-! DEFINITION. The meaning of each command, one arm per constructor of `Instr`. -/

namespace Sys2Proof.Machine

def exec (i : Instr) (s : State) : Host.Outcome State Fault Refusal :=
  match i with
  | .nop => Sys2Proof.Machine.execNop s
  | .setEndian a => Sys2Proof.Machine.execSetEndian a s
  | .setType tag => Sys2Proof.Machine.execSetType tag s
  | .setSeq seq => Sys2Proof.Machine.execSetSeq seq s
  | .setErrc errc => Sys2Proof.Machine.execSetErrc errc s
  | .rdReg reg => Sys2Proof.Machine.execRdReg reg s
  | .sreset => Sys2Proof.Machine.execSreset s
  | .stgClear => Sys2Proof.Machine.execStgClear s
  | .stgPush byte => Sys2Proof.Machine.execStgPush byte s
  | .inClear => Sys2Proof.Machine.execInClear s
  | .inPush byte => Sys2Proof.Machine.execInPush byte s
  | .inRead index => Sys2Proof.Machine.execInRead index s
  | .fbRead index => Sys2Proof.Machine.execFbRead index s
  | .logRead a index => Sys2Proof.Machine.execLogRead a index s
  | .wrByte elem => Sys2Proof.Machine.execWrByte elem s
  | .wrShort elem => Sys2Proof.Machine.execWrShort elem s
  | .wrUshort elem => Sys2Proof.Machine.execWrUshort elem s
  | .wrInt elem => Sys2Proof.Machine.execWrInt elem s
  | .wrUint elem => Sys2Proof.Machine.execWrUint elem s
  | .wrLong elem => Sys2Proof.Machine.execWrLong elem s
  | .wrDouble elem => Sys2Proof.Machine.execWrDouble elem s
  | .wrString elem => Sys2Proof.Machine.execWrString elem s
  | .wrBytes elem => Sys2Proof.Machine.execWrBytes elem s
  | .wrBytesLp elem => Sys2Proof.Machine.execWrBytesLp elem s
  | .txBegin => Sys2Proof.Machine.execTxBegin s
  | .frameEncode => Sys2Proof.Machine.execFrameEncode s
  | .rdByte elem => Sys2Proof.Machine.execRdByte elem s
  | .rdShort elem => Sys2Proof.Machine.execRdShort elem s
  | .rdUshort elem => Sys2Proof.Machine.execRdUshort elem s
  | .rdInt elem => Sys2Proof.Machine.execRdInt elem s
  | .rdUint elem => Sys2Proof.Machine.execRdUint elem s
  | .rdLong elem => Sys2Proof.Machine.execRdLong elem s
  | .rdDouble elem => Sys2Proof.Machine.execRdDouble elem s
  | .rdString elem => Sys2Proof.Machine.execRdString elem s
  | .rdBytes elem => Sys2Proof.Machine.execRdBytes elem s
  | .rdBytesLp elem => Sys2Proof.Machine.execRdBytesLp elem s
  | .frameDecode => Sys2Proof.Machine.execFrameDecode s
  | .facRegister tag handler => Sys2Proof.Machine.execFacRegister tag handler s
  | .facDispatch => Sys2Proof.Machine.execFacDispatch s

end Sys2Proof.Machine
end

