-- ==== Sys2Proof/Machine/Port.lean ====
section
/-! DEFINITION. The command port: what the host presents to a step, and what the block does when that
is no legal command (10_state.md R21, 60_exceptions.md R290, R298, R300). -/

namespace Sys2Proof.Machine

/-- What stands at the port. -/
inductive Presented where
  /-- nothing -/
  | nothing
  /-- the reset event -/
  | resetEvent
  /-- a word that is no command (30_encoding.md R95) -/
  | illegalWord
  /-- a command -/
  | instr (i : Instr)
deriving DecidableEq, Repr

/-- The host's next move, its command word decoded. -/
def State.presented (s : State) : Presented :=
  match s.pending with
  | [] => .nothing
  | .reset :: _ => .resetEvent
  | .command c :: _ =>
    match decode c.cmd with
    | .ok i => .instr i
    | .error _ => .illegalWord

/-- The block between commands does nothing and holds its state (60_exceptions.md R298); such a step
answers nothing (10_state.md R21). -/
def State.idle (s : State) : State := { s with response := none }

/-- The reset event (70_reset_and_hazards.md R320): the reset state, the move used up, no response. -/
def State.takeReset (s : State) : State := { s.resetBlock with pending := s.pending.tail }

/-- A word that is no command raises E_ILLEGAL and changes nothing (60_exceptions.md R290). -/
def illegalCommand (s : State) : Result := s.raise .illegal

/-- The host's next move becomes the command with the word `w`, DIN and NAME zero. -/
def State.present (s : State) (w : BitVec 32) : State :=
  { s with pending := .command { cmd := w, din := 0, name := 0 } :: s.pending }

end Sys2Proof.Machine
end

