-- ==== Sys2Proof/Machine/Step.lean ====
section
/-! DEFINITION. One step: the block takes the host's next move (00_scope.md R5, 60_exceptions.md R300). -/

namespace Sys2Proof.Machine

/-- One step of the block. -/
def step (s : State) : Host.Outcome State Fault Refusal :=
  match s.presented with
  | .nothing => .next s.idle
  | .resetEvent => .next s.takeReset
  | .illegalWord => illegalCommand s
  | .instr i => exec i s

/-- The state with the instruction whose word is the low `nbits` bits of `w` at the command port, so that
the next step takes it (notes/assumptions/7.md). -/
def State.withFetchWord (s : State) (nbits w : Nat) : State := s.present (BitVec.ofNat 32 (w % 2 ^ nbits))

end Sys2Proof.Machine
end

