-- ==== Sys2Proof/Safety.lean ====
section
/-! DEFINITION. The terms claims are stated in: the fields of a response, a run and its observation
(60_exceptions.md R301), the invariants of 10_state.md R39, and the spec's own words for values, ranges,
verdicts and command families, written here apart from the functions the machine computes with. -/

namespace Sys2Proof.Machine

/-- STATUS.CAUSE (10_state.md R37). -/
def Response.cause (r : Response) : BitVec 8 := r.status.extractLsb' 0 8

/-- STATUS.NOHANDLER (10_state.md R37). -/
def Response.noHandler (r : Response) : Bool := r.status.getLsbD 8

/-- The command succeeded: CAUSE = 0x00 (60_exceptions.md R280). -/
def Response.succeeded (r : Response) : Bool := r.cause == 0x00#8

/-- The state from which a run of the commands `cs` starts (60_exceptions.md R301). -/
def State.issue (s : State) (cs : List Command) : State := { s with pending := cs.map .command }

/-- The responses of the next `k` steps, in order: what the host sees of a run (60_exceptions.md R301). -/
def observe : Nat → State → List Response
  | 0, _ => []
  | k + 1, s =>
    match step s with
    | .next t => t.response.toList ++ observe k t
    | .fault _ => []
    | .refused _ => []

/-- `k` steps of the machine. -/
def runSteps : Nat → State → Result
  | 0, s => .next s
  | k + 1, s =>
    match step s with
    | .next t => runSteps k t
    | .fault r => .fault r
    | .refused r => .refused r

/-- The sum of SIZE over a field log (10_state.md R39). -/
def logBytes (log : List Record) : Nat := (log.map fun r => r.size.toNat).sum

/-- What RX.VALID = 1 implies (10_state.md R39). -/
structure State.SessionOpen (s : State) : Prop where
  clean : s.rx.err = 0x00#8
  header : 8 ≤ s.mem.len .ibuf
  initByte : s.mem.byte? .ibuf 0 = some 0x45#8
  stop : s.rx.endOff.toNat = 8 + s.rx.dsize.toNat
  size : s.rx.dsize.toNat ≤ 2491
  start : 8 ≤ s.rx.off.toNat
  cursor : s.rx.off.toNat ≤ s.rx.endOff.toNat
  whole : s.rx.dsize = 0#16 ∨ 9 + s.rx.dsize.toNat ≤ s.mem.len .ibuf

/-- The invariants every command preserves (10_state.md R39). RX.END is not 0 from a FRAME_DECODE that
succeeds until the next RX_CLEAR (10_state.md R32, R41), which is how `rxLog` says that span. -/
structure State.Inv (s : State) : Prop where
  memory : s.mem.wf = true
  frame : s.mem.len .fbuf = 0 ∨ s.mem.len .fbuf = 8 ∨
    ∃ n, 1 ≤ n ∧ n ≤ 2491 ∧ s.mem.len .fbuf = 9 + n
  txLogCap : s.tx.log.length ≤ Config.logCap
  rxLogCap : s.rx.log.length ≤ Config.logCap
  txLog : logBytes s.tx.log = s.mem.len .obuf
  rxLog : s.rx.endOff ≠ 0#16 → 8 + logBytes s.rx.log = s.rx.off.toNat
  session : s.rx.valid = true → s.SessionOpen
  poisoned : s.tx.err ≠ 0x00#8 → s.tx.active = true

/-! ### Values and their bytes -/

/-- The `w` low bytes of a value in a byte order, written as 20_memory.md R61 lists them. -/
def valueBytes (e : Endian) (w : Nat) (v : BitVec 64) : List Byte :=
  match e with
  | .little => (List.range w).map fun k => v.extractLsb' (8 * k) 8
  | .big    => ((List.range w).map fun k => v.extractLsb' (8 * k) 8).reverse

/-- The value of a byte sequence in a byte order, written as the sums of 20_memory.md R61. -/
def bytesValue (e : Endian) (bs : List Byte) : Nat :=
  match e with
  | .little => ((List.range bs.length).map fun k => (bs.getD k 0).toNat * 256 ^ k).sum
  | .big    => ((List.range bs.length).map fun k => (bs.getD k 0).toNat * 256 ^ (bs.length - 1 - k)).sum

/-- The value range of a type (00_scope.md R15, 41_field_coder.md R163); BYTE to UINT by number. -/
def fits (t : FieldType) (din : BitVec 64) : Prop :=
  match t with
  | .byte      => din.toNat ≤ 255
  | .short     => -32768 ≤ din.toInt ∧ din.toInt ≤ 32767
  | .ushort    => din.toNat ≤ 65535
  | .int       => -2147483648 ≤ din.toInt ∧ din.toInt ≤ 2147483647
  | .uint      => din.toNat ≤ 4294967295
  | .long      => True
  | .double    => True
  | .string    => True
  | .byteArray => True

/-- The 64-bit result of reading the unsigned value `v` as a scalar type: two's complement for SHORT
and INT (42_field_decoder.md R191, 00_scope.md R9). -/
def widened (t : FieldType) (v : Nat) : BitVec 64 :=
  match t with
  | .short => if v < 32768 then BitVec.ofNat 64 v else BitVec.ofInt 64 ((v : Int) - 65536)
  | .int   => if v < 2147483648 then BitVec.ofNat 64 v else BitVec.ofInt 64 ((v : Int) - 4294967296)
  | _      => BitVec.ofNat 64 v

/-- The type codes (00_scope.md R15). -/
def typeNumber : FieldType → Nat
  | .byte => 0 | .short => 1 | .ushort => 2 | .int => 3 | .uint => 4 | .long => 5 | .double => 6
  | .string => 7 | .byteArray => 8

/-- The number of a one-bit field. -/
def bitNumber (b : Bool) : Nat := if b then 1 else 0

/-- The number of a byte order (10_state.md R23). -/
def endianNumber : Endian → Nat
  | .little => 0 | .big => 1

/-! ### The state a command leaves -/

/-- `s` after a command that answered with this cause and these results (60_exceptions.md R284,
30_encoding.md R104): the response is given and the command has left the port. That a response and the
moves to come stand in State is the model's form of the port (notes/assumptions/1.md, 2.md). -/
def State.answered (s : State) (c : Cause) (dout : BitVec 64) (daux : BitVec 16) : State :=
  { s with
    response := some { status := statusWord c false s.tx s.rx, dout := dout, daux := daux }
    pending := s.pending.tail }

/-- `s` but for the port, for comparing the block's own state. -/
def State.offPort (s : State) : State := { s with response := none, pending := [] }

/-- The RX channel after RX_CLEAR, as 10_state.md R41 lists it. -/
def clearedRx (rx : Rx) : Rx where
  valid := false
  endian := rx.endian
  err := 0x00#8
  typeTag := 0x00#8
  seq := 0x0000#16
  errc := 0x00#8
  dsize := 0x0000#16
  hck := 0x00#8
  dck := 0x00#8
  off := 0
  endOff := 0
  log := []

/-- TX.ERR <- c (41_field_coder.md R161). -/
def State.withTxErr (s : State) (c : Cause) : State := { s with tx := { s.tx with err := c.code } }

/-- RX.ERR <- c, RX.VALID <- 0 (42_field_decoder.md R191). -/
def State.withRxErr (s : State) (c : Cause) : State :=
  { s with rx := { s.rx with err := c.code, valid := false } }

/-- The writes of WRITE_FIELD (41_field_coder.md R161). -/
def State.wrote (s : State) (t : FieldType) (e : BitVec 16) (bs : List Byte) : State :=
  { s with
    mem := { s.mem with obuf := s.mem.obuf ++ bs }
    tx := { s.tx with
      log := s.tx.log ++ [{ name := s.name, elem := e, size := BitVec.ofNat 16 bs.length, type := t }] } }

/-- The writes of CONSUME (42_field_decoder.md R191). -/
def State.took (s : State) (t : FieldType) (e : BitVec 16) (n : Nat) : State :=
  { s with
    rx := { s.rx with
      off := BitVec.ofNat 16 (s.rx.off.toNat + n)
      log := s.rx.log ++ [{ name := s.name, elem := e, size := BitVec.ofNat 16 n, type := t }] } }

/-- The `n` bytes of IBUF from the cursor on. -/
def State.cursorBytes (s : State) (n : Nat) : List Byte :=
  (List.range n).map fun k => s.mem.byte .ibuf (s.rx.off.toNat + k)

/-- The 16-bit length at the cursor (42_field_decoder.md R201). -/
def State.prefixLength (s : State) : Nat := bytesValue s.rx.endian (s.cursorBytes 2)

/-! ### The frame in IBUF -/

/-- The data size a frame in IBUF declares, read in byte order CFG.ENDIAN (40_frame_codec.md R132). -/
def State.declaredSize (s : State) : Nat := bytesValue s.cfgEndian [s.mem.byte .ibuf 5, s.mem.byte .ibuf 6]

/-- The XOR of IBUF[a..a+n). -/
def State.inputXor (s : State) (a n : Nat) : Byte :=
  ((List.range n).map fun k => s.mem.byte .ibuf (a + k)).foldr (fun b x => b ^^^ x) 0x00#8

/-- The first fault of the frame in IBUF in the order of 40_frame_codec.md R133, or none. -/
def State.frameFault (s : State) : Option Cause :=
  if s.mem.ibuf.length < 8 then some .fmtShort
  else if s.mem.byte .ibuf 0 ≠ 0x45#8 then some .fmtInit
  else if s.inputXor 0 7 ≠ s.mem.byte .ibuf 7 then some .fmtHck
  else if 2491 < s.declaredSize then some .fmtSize
  else if 0 < s.declaredSize ∧ s.mem.ibuf.length < 9 + s.declaredSize then some .fmtTrunc
  else if 0 < s.declaredSize ∧ s.inputXor 8 s.declaredSize ≠ s.mem.byte .ibuf (8 + s.declaredSize) then some .fmtDck
  else none

/-- The RX channel after an accepted frame (10_state.md R31, R32; 40_frame_codec.md R132 step 6). -/
def State.acceptedRx (s : State) : Rx where
  valid := true
  endian := s.cfgEndian
  err := 0x00#8
  typeTag := s.mem.byte .ibuf 1
  seq := BitVec.ofNat 16 (bytesValue s.cfgEndian [s.mem.byte .ibuf 2, s.mem.byte .ibuf 3])
  errc := s.mem.byte .ibuf 4
  dsize := BitVec.ofNat 16 s.declaredSize
  hck := s.mem.byte .ibuf 7
  dck := if s.declaredSize = 0 then 0x00#8 else s.mem.byte .ibuf (8 + s.declaredSize)
  off := 8
  endOff := BitVec.ofNat 16 (8 + s.declaredSize)
  log := []

/-- The RX channel after a rejected frame (40_frame_codec.md R132, `fail`). -/
def State.rejectedRx (s : State) (c : Cause) : Rx := { clearedRx s.rx with endian := s.cfgEndian, err := c.code }

/-- The frame of the open coder session, byte by byte (30_encoding.md R100). -/
def State.txFrame (s : State) : List Byte :=
  let h := [0x45#8, s.tx.typeTag] ++ valueBytes s.tx.endian 2 (s.tx.seq.setWidth 64) ++ [s.tx.errc] ++
    valueBytes s.tx.endian 2 (BitVec.ofNat 64 s.mem.obuf.length)
  h ++ [h.foldr (fun b x => b ^^^ x) 0x00#8] ++
    if s.mem.obuf.length = 0 then [] else s.mem.obuf ++ [s.mem.obuf.foldr (fun b x => b ^^^ x) 0x00#8]

/-! ### Families of commands -/

/-- The field writes WR_*. -/
def isWrite : Instr → Bool
  | .wrByte _ | .wrShort _ | .wrUshort _ | .wrInt _ | .wrUint _ | .wrLong _ | .wrDouble _ | .wrString _
  | .wrBytes _ | .wrBytesLp _ => true
  | _ => false

/-- The field reads RD_*. -/
def isRead : Instr → Bool
  | .rdByte _ | .rdShort _ | .rdUshort _ | .rdInt _ | .rdUint _ | .rdLong _ | .rdDouble _ | .rdString _
  | .rdBytes _ | .rdBytesLp _ => true
  | _ => false

/-- The commands that may run RX_CLEAR (10_state.md R36, R41). -/
def clearsRx : Instr → Bool
  | .frameDecode | .facDispatch | .inClear | .inPush _ | .sreset => true
  | _ => false

/-- The scalar writes: type, wire bytes, the `match` of the opcode table, the command (41_field_coder.md
R164 to R170). -/
def scalarWrites : List (FieldType × Nat × BitVec 32 × (BitVec 16 → Instr)) :=
  [ (.byte, 1, 0x00000020#32, .wrByte), (.short, 2, 0x00000021#32, .wrShort),
    (.ushort, 2, 0x00000022#32, .wrUshort), (.int, 4, 0x00000023#32, .wrInt),
    (.uint, 4, 0x00000024#32, .wrUint), (.long, 8, 0x00000025#32, .wrLong),
    (.double, 8, 0x00000026#32, .wrDouble) ]

/-- The scalar reads (42_field_decoder.md R194 to R200). -/
def scalarReads : List (FieldType × Nat × BitVec 32 × (BitVec 16 → Instr)) :=
  [ (.byte, 1, 0x00000030#32, .rdByte), (.short, 2, 0x00000031#32, .rdShort),
    (.ushort, 2, 0x00000032#32, .rdUshort), (.int, 4, 0x00000033#32, .rdInt),
    (.uint, 4, 0x00000034#32, .rdUint), (.long, 8, 0x00000035#32, .rdLong),
    (.double, 8, 0x00000036#32, .rdDouble) ]

/-- The field's bytes a variable-length write appends (41_field_coder.md R171 to R173): with its 16-bit
length before them when `lp`. -/
def State.stagedField (s : State) (lp : Bool) : List Byte :=
  (if lp then valueBytes s.tx.endian 2 (BitVec.ofNat 64 s.mem.stage.length) else []) ++ s.mem.stage

/-- The variable-length writes: type, whether with a length, `match`, the command. -/
def stagedWrites : List (FieldType × Bool × BitVec 32 × (BitVec 16 → Instr)) :=
  [ (.string, true, 0x00000027#32, .wrString), (.byteArray, false, 0x00000028#32, .wrBytes),
    (.byteArray, true, 0x00000029#32, .wrBytesLp) ]

/-- The length-prefixed reads (42_field_decoder.md R201, R203). -/
def prefixedReads : List (FieldType × BitVec 32 × (BitVec 16 → Instr)) :=
  [ (.string, 0x00000037#32, .rdString), (.byteArray, 0x00000039#32, .rdBytesLp) ]

/-- The mask and the match of each of the 39 commands, as 30_encoding.md R94 lists them; a word selects a
command when `CMD & mask = match` (R92). -/
def opcodeMatches : List (BitVec 32 × BitVec 32) :=
  [0x00000000#32, 0x0000000F#32, 0x00000010#32, 0x00000012#32, 0x0000002E#32, 0x0000002F#32, 0x0000003E#32,
    0x00000041#32].map (0xFFFFFFFF#32, ·) ++
  [(0xFFFFFEFF#32, 0x00000001#32)] ++
  [0x00000002#32, 0x00000004#32, 0x00000005#32, 0x00000011#32, 0x00000013#32].map (0xFFFF00FF#32, ·) ++
  [0x00000003#32, 0x00000014#32, 0x00000015#32, 0x00000020#32, 0x00000021#32, 0x00000022#32, 0x00000023#32,
    0x00000024#32, 0x00000025#32, 0x00000026#32, 0x00000027#32, 0x00000028#32, 0x00000029#32, 0x00000030#32,
    0x00000031#32, 0x00000032#32, 0x00000033#32, 0x00000034#32, 0x00000035#32, 0x00000036#32, 0x00000037#32,
    0x00000038#32, 0x00000039#32].map (0x0000FFFF#32, ·) ++
  [(0x0000FEFF#32, 0x00000016#32), (0x000000FF#32, 0x00000040#32)]

/-- A word that `mask` and `value` select (30_encoding.md R92) decodes to the command built from its A
and B; any other word with that opcode raises E_ILLEGAL and changes nothing. -/
def HasEncoding (mask value : BitVec 32) (build : BitVec 8 → BitVec 16 → Instr) : Prop :=
  (∀ w, w &&& mask = value → decode w = .ok (build (wordA w) (wordB w))) ∧
    ∀ s c rest, s.pending = .command c :: rest → wordOp c.cmd = wordOp value → c.cmd &&& mask ≠ value →
      step s = .next (s.answered .illegal 0 0)

/-- A scalar field of a message: its type, element index, label and value. -/
structure ScalarField where
  type : FieldType
  elem : BitVec 16
  name : BitVec 32
  value : BitVec 64
deriving DecidableEq, Repr

/-- The command that writes a field of a type. -/
def writeOf : FieldType → BitVec 16 → Instr
  | .byte => .wrByte
  | .short => .wrShort
  | .ushort => .wrUshort
  | .int => .wrInt
  | .uint => .wrUint
  | .long => .wrLong
  | .double => .wrDouble
  | .string => .wrString
  | .byteArray => .wrBytesLp

/-- The command that reads a field of a type. -/
def readOf : FieldType → BitVec 16 → Instr
  | .byte => .rdByte
  | .short => .rdShort
  | .ushort => .rdUshort
  | .int => .rdInt
  | .uint => .rdUint
  | .long => .rdLong
  | .double => .rdDouble
  | .string => .rdString
  | .byteArray => .rdBytesLp

/-- A type of fixed width. -/
def isScalar (t : FieldType) : Prop := t ≠ .string ∧ t ≠ .byteArray

/-- The wire bytes of a scalar field (00_scope.md R15). -/
def wireBytes : FieldType → Nat
  | .byte => 1 | .short => 2 | .ushort => 2 | .int => 4 | .uint => 4 | .long => 8 | .double => 8
  | .string => 0 | .byteArray => 0

/-- The host's move that writes the field. -/
def ScalarField.writeMove (f : ScalarField) : HostMove :=
  .command { cmd := encode (writeOf f.type f.elem), din := f.value, name := f.name }

/-- The host's move that reads it. -/
def ScalarField.readMove (f : ScalarField) : HostMove :=
  .command { cmd := encode (readOf f.type f.elem), din := 0, name := f.name }

/-- The host's move that issues a command without operands beside its word. -/
def plainMove (i : Instr) : HostMove := .command { cmd := encode i, din := 0, name := 0 }

/-! ### Where commands store -/

/-- The bytes an appending command stores when it succeeds: the space, the address, which is the space's
length (20_memory.md R60), and how many (20_memory.md R67). -/
def storedSpan (i : Instr) (s : State) : Option (Space × Nat × Nat) :=
  match i with
  | .wrByte _ => some (.obuf, s.mem.len .obuf, 1)
  | .wrShort _ | .wrUshort _ => some (.obuf, s.mem.len .obuf, 2)
  | .wrInt _ | .wrUint _ => some (.obuf, s.mem.len .obuf, 4)
  | .wrLong _ | .wrDouble _ => some (.obuf, s.mem.len .obuf, 8)
  | .wrString _ | .wrBytesLp _ => some (.obuf, s.mem.len .obuf, 2 + s.mem.len .stage)
  | .wrBytes _ => some (.obuf, s.mem.len .obuf, s.mem.len .stage)
  | .inPush _ => some (.ibuf, s.mem.len .ibuf, 1)
  | .stgPush _ => some (.stage, s.mem.len .stage, 1)
  | _ => none

/-- The commands that may change a space (20_memory.md R60, 70_reset_and_hazards.md R320). -/
def writesSpace (i : Instr) : Space → Bool
  | .ibuf => match i with | .inPush _ | .inClear | .sreset => true | _ => false
  | .obuf => match i with | .txBegin | .sreset => true | _ => isWrite i
  | .fbuf => match i with | .frameEncode | .sreset => true | _ => false
  | .stage => match i with | .stgPush _ | .stgClear | .sreset => true | _ => false

/-- The causes each command can raise once its word is legal (60_exceptions.md R282). SET_ENDIAN and
LOG_READ raise E_ILLEGAL for a selector with a must-be-zero bit set. -/
def raisable : Instr → List Cause
  | .nop | .stgClear | .inClear | .txBegin | .sreset | .setType _ | .setSeq _ | .setErrc _ | .facRegister _ _ => []
  | .setEndian _ | .rdReg _ => [.illegal]
  | .stgPush _ | .inPush _ => [.overflow]
  | .inRead _ | .fbRead _ => [.bounds]
  | .logRead _ _ => [.illegal, .bounds]
  | .wrByte _ | .wrShort _ | .wrUshort _ | .wrInt _ | .wrUint _ => [.state, .range, .overflow]
  | .wrLong _ | .wrDouble _ | .wrString _ | .wrBytes _ | .wrBytesLp _ => [.state, .overflow]
  | .frameEncode => [.state]
  | .rdByte _ | .rdShort _ | .rdUshort _ | .rdInt _ | .rdUint _ | .rdLong _ | .rdDouble _ | .rdString _
  | .rdBytesLp _ => [.state, .bounds, .overflow]
  | .rdBytes _ => [.state, .range, .bounds, .overflow]
  | .frameDecode => [.fmtShort, .fmtInit, .fmtHck, .fmtSize, .fmtTrunc, .fmtDck]
  | .facDispatch => [.fmtShort, .fmtInit, .fmtHck, .fmtSize, .fmtTrunc, .fmtDck]

/-- The block's state after a command that failed with the cause `c`, as the table of 60_exceptions.md
R286 lists it. -/
def failureState (i : Instr) (c : Cause) (s : State) : State :=
  if isWrite i then (if c = .state then s else s.withTxErr c)
  else if isRead i then (if c = .state then s else s.withRxErr c)
  else match i with
    | .frameDecode => { s with rx := s.rejectedRx c }
    | .facDispatch =>
      if c = .fmtShort then s
      else { s with
        rx := s.rejectedRx c
        fac := { done := true, tag := s.mem.byte .ibuf 1, found := true,
                 handler := (s.entry (s.mem.byte .ibuf 1)).handler } }
    | _ => s

end Sys2Proof.Machine
end

