-- ==== Sys2Proof/Certificates/Slice0/Obligations.lean ====
section
/-! DEFINITION. The statements for the provers. Each docstring names the rule or the section of spec/ it
formalises. Where a statement speaks of `pending`, `response` or `offPort` it speaks of the command port,
which the model carries in its state by its own choice (notes/assumptions/1.md, 2.md). -/

open Sys2Proof Sys2Proof.Machine

/-! ### Encoding -/

/-- Decoding the word of a well-formed command gives the command back, with every operand at every value
its fields admit (30_encoding.md section 1). -/
def Obligations.DecodeEncodeRoundTrip : Prop :=
  ∀ i : Instr, i.wellFormed = true → decode (encode i) = .ok i

/-- A legal word is the encoding of the one well-formed command it decodes to (30_encoding.md sections 1
and 2). -/
def Obligations.EncodeDecodeRoundTrip : Prop :=
  ∀ w i, decode w = .ok i → i.wellFormed = true ∧ encode i = w

/-- Words written out from 30_encoding.md R90 and R93 and the vectors of 95_test_vectors.md decode to the
commands they stand for, and three illegal ones do not decode. -/
def Obligations.SampleWordsDecode : Prop :=
  decode 0x00000101#32 = .ok (.setEndian 1#8) ∧ decode 0x00050003#32 = .ok (.setSeq 5#16) ∧
  decode 0x00071040#32 = .ok (.facRegister 0x10#8 7#16) ∧ decode 0x09C30014#32 = .ok (.inRead 2499#16) ∧
  decode 0x00020116#32 = .ok (.logRead 1#8 2#16) ∧ decode 0x00010021#32 = .ok (.wrShort 1#16) ∧
  decode 0x00020031#32 = .ok (.rdShort 2#16) ∧ decode 0x0000002F#32 = .ok .frameEncode ∧
  decode 0x00000201#32 = .error (.mustBeZero "SET_ENDIAN") ∧
  decode 0x00010102#32 = .error (.mustBeZero "SET_TYPE") ∧ decode 0x00000006#32 = .error (.unassigned 0x06#8)

/-- A word that selects none of the 39 commands (its OP is not assigned, or a must-be-zero bit is set)
raises E_ILLEGAL and changes nothing, whatever DIN and NAME hold; so does RD_REG with a number that is no
register; FAC_REGISTER's words are all legal (60_exceptions.md R290, 30_encoding.md R95). -/
def Obligations.IllegalRaisesWithoutEffect : Prop :=
  (∀ s c rest, s.pending = .command c :: rest → (∀ p ∈ opcodeMatches, c.cmd &&& p.1 ≠ p.2) →
    step s = .next (s.answered .illegal 0 0)) ∧
  (∀ s r, ¬ (r.toNat ≤ 0x0B ∨ 0x10 ≤ r.toNat ∧ r.toNat ≤ 0x19 ∨ r.toNat = 0x20) →
    exec (.rdReg r) s = .next (s.answered .illegal 0 0)) ∧
  ∀ w, wordOp w = 0x40#8 → ∃ i, decode w = .ok i

/-- A word is a command exactly when the mask and match of one of the 39 commands select it, and then of
exactly one (30_encoding.md R92, R94, R95). -/
def Obligations.LegalWordsAreTheOpcodeMap : Prop :=
  opcodeMatches.length = 39 ∧ ∀ w,
    ((∃ i, decode w = .ok i) ↔ ∃ p ∈ opcodeMatches, w &&& p.1 = p.2) ∧
    ∀ p ∈ opcodeMatches, ∀ q ∈ opcodeMatches, w &&& p.1 = p.2 → w &&& q.1 = q.2 → p = q

/-! ### The step -/

/-- A step with a command at the port runs the command its word decodes to, with DIN and NAME as
presented; the step adds nothing around it (00_scope.md R5, 10_state.md R21; the port is the model's
choice, notes/assumptions/1.md). -/
def Obligations.StepRunsDecodedCommand : Prop :=
  ∀ s c rest i, s.pending = .command c :: rest → decode c.cmd = .ok i →
    step s = exec i s ∧ s.din = c.din ∧ s.name = c.name

/-- With nothing at the port the block holds its state and answers nothing (60_exceptions.md R298; that
such a step exists is the model's choice, notes/assumptions/2.md). -/
def Obligations.IdleStepHoldsState : Prop :=
  ∀ s, s.pending = [] → step s = .next { s with response := none }

/-- The step function is total: a step always has a next state, and one that takes a command, legal or
not, gives exactly one response and takes just that command from the port (60_exceptions.md R299; the port
in the state is the model's choice, notes/assumptions/1.md, 2.md). -/
def Obligations.EveryCommandIsAnswered : Prop :=
  (∀ s, ∃ t, step s = .next t) ∧
  ∀ s c rest, s.pending = .command c :: rest → ∃ t r, step s = .next t ∧ t.response = some r ∧ t.pending = rest

/-- A run of n commands gives n responses (60_exceptions.md R301; the port in the state is the model's
choice, notes/assumptions/1.md, 2.md). -/
def Obligations.RunGivesOneResponsePerCommand : Prop :=
  ∀ (cs : List Command) (s : State), (observe cs.length (s.issue cs)).length = cs.length ∧
    ∃ t, runSteps cs.length (s.issue cs) = .next t ∧ t.pending = []

/-- Every bit of STATUS reports what 10_state.md R37 says, after the writes of the command: CAUSE is the code
of the cause the command ends with, whatever the flags, and `State.answered`, in whose terms the statements
about commands say what they answer, carries it into the response. -/
def Obligations.StatusReportsTheState : Prop :=
  (∀ (c : Cause) (nh : Bool) (tx : Tx) (rx : Rx), (statusWord c nh tx rx).extractLsb' 0 8 = c.code) ∧
  (∀ (s : State) c dout daux,
    (s.answered c dout daux).response.map (fun r => (r.cause, r.noHandler, r.dout, r.daux)) =
      some (c.code, false, dout, daux)) ∧
  ∀ s t r, step s = .next t → t.response = some r →
    r.status.getLsbD 9 = t.tx.active ∧ r.status.getLsbD 10 = decide (t.tx.err ≠ 0x00#8) ∧
    r.status.getLsbD 11 = t.rx.valid ∧ r.status.getLsbD 12 = decide (t.rx.err ≠ 0x00#8) ∧
    r.status.toNat < 2 ^ 13 ∧
    (r.noHandler = true ↔ ∃ c rest, s.pending = .command c :: rest ∧ decode c.cmd = .ok .facDispatch ∧
      8 ≤ s.mem.len .ibuf ∧ (s.entry (s.mem.byte .ibuf 1)).valid = false) ∧
    (r.noHandler = true → r.cause = 0x00#8)

/-- The numbers of the causes, and of the field types (60_exceptions.md R280, 00_scope.md R15). -/
def Obligations.CauseAndTypeNumbers : Prop :=
  ([.ok, .fmtShort, .fmtInit, .fmtHck, .fmtSize, .fmtTrunc, .fmtDck, .unsupported, .bounds, .overflow, .range,
    .state, .illegal].map fun c : Cause => c.code.toNat) = [0, 1, 2, 3, 4, 5, 6, 7, 8, 9, 10, 11, 12] ∧
  ([.byte, .short, .ushort, .int, .uint, .long, .double, .string, .byteArray].map fun t : FieldType =>
    (typeCode t).toNat) = [0, 1, 2, 3, 4, 5, 6, 7, 8]

/-- LOG_CAP, whatever its value, lies in the range 92_eei_decisions.md D10 leaves open; that it is a free
value is the model's choice (notes/assumptions/4.md). -/
def Obligations.LogCapacityInRange : Prop := 2491 ≤ Config.logCap ∧ Config.logCap ≤ 65535

/-! ### Reset and invariants -/

/-- Reset sets every state element to the value 70_reset_and_hazards.md R320 lists; the reset event and
SRESET have the same effect, and SRESET answers STATUS = 0, DOUT = 0, DAUX = 0. What the reset
event leaves in the port's fields, the rest of `pending` and no `response`, is the model's choice
(notes/assumptions/1.md, 2.md). -/
def Obligations.ResetSetsEveryElement : Prop :=
  (∀ s rest, s.pending = .reset :: rest → step s = .next { State.reset with pending := rest }) ∧
  (∀ s, exec .sreset s =
    .next { State.reset with pending := s.pending.tail, response := some ⟨0x00000000#32, 0, 0⟩ }) ∧
  State.reset.cfgEndian = .little ∧
  State.reset.tx = ⟨0x00#8, 0x0000#16, 0x00#8, false, .little, 0x00#8, 0x00#8, 0x00#8, []⟩ ∧
  State.reset.rx = ⟨false, .little, 0x00#8, 0x00#8, 0x0000#16, 0x00#8, 0x0000#16, 0x00#8, 0x00#8, 0, 0, []⟩ ∧
  (∀ sp, State.reset.mem.len sp = 0) ∧
  (∀ t, State.reset.entry t = ⟨false, 0x0000#16⟩) ∧
  State.reset.fac = ⟨false, 0x00#8, false, 0x0000#16⟩

/-- The reset state meets the invariants of 10_state.md R39. -/
def Obligations.ResetMeetsInvariants : Prop := State.reset.Inv

/-- Every step, from any state that meets them, keeps the invariants of 10_state.md R39: the buffer and
log bounds, the frame's length, the sums over the logs, what an open decoder session implies, and that
only an open coder session is poisoned. -/
def Obligations.StepKeepsInvariants : Prop := ∀ s t, s.Inv → step s = .next t → t.Inv

/-! ### Control family -/

/-- NOP only answers (44_control.md R240). -/
def Obligations.NopOnlyAnswers : Prop :=
  HasEncoding 0xFFFFFFFF#32 0x00000000#32 (fun _ _ => .nop) ∧ ∀ s, exec .nop s = .next (s.answered .ok 0 0)

/-- SET_ENDIAN writes CFG.ENDIAN from A[0] and nothing else; a word with A[7:1] not zero is E_ILLEGAL
(44_control.md R241). The last clause is the model's choice: no legal word decodes to a term with such a
selector, and what its meaning does follows the rule for the word (notes/assumptions/8.md). -/
def Obligations.SetEndianWritesSelector : Prop :=
  HasEncoding 0xFFFFFEFF#32 0x00000001#32 (fun a _ => .setEndian a) ∧
  (∀ s, exec (.setEndian 0#8) s = .next (({ s with cfgEndian := .little } : State).answered .ok 0 0)) ∧
  (∀ s, exec (.setEndian 1#8) s = .next (({ s with cfgEndian := .big } : State).answered .ok 0 0)) ∧
  ∀ s a, 2 ≤ a.toNat → exec (.setEndian a) s = .next (s.answered .illegal 0 0)

/-- SET_TYPE, SET_SEQ and SET_ERRC each write their header register, any value, and nothing else
(44_control.md R242, R243, R244). -/
def Obligations.HeaderSettersWriteTheirRegister : Prop :=
  HasEncoding 0xFFFF00FF#32 0x00000002#32 (fun a _ => .setType a) ∧
  HasEncoding 0x0000FFFF#32 0x00000003#32 (fun _ b => .setSeq b) ∧
  HasEncoding 0xFFFF00FF#32 0x00000004#32 (fun a _ => .setErrc a) ∧
  ∀ s : State,
    (∀ t, exec (.setType t) s = .next (({ s with tx := { s.tx with typeTag := t } } : State).answered .ok 0 0)) ∧
    (∀ n, exec (.setSeq n) s = .next (({ s with tx := { s.tx with seq := n } } : State).answered .ok 0 0)) ∧
    ∀ e, exec (.setErrc e) s = .next (({ s with tx := { s.tx with errc := e } } : State).answered .ok 0 0)

/-- RD_REG answers every register of the map as 10_state.md R36 lays it out, by number, changes no state,
and raises E_ILLEGAL for every other number (44_control.md R245). -/
def Obligations.RdRegAnswersTheRegisterMap : Prop :=
  HasEncoding 0xFFFF00FF#32 0x00000005#32 (fun a _ => .rdReg a) ∧
  ∀ s : State,
    (∀ p ∈ [(0x00, endianNumber s.cfgEndian), (0x01, s.tx.typeTag.toNat), (0x02, s.tx.seq.toNat),
        (0x03, s.tx.errc.toNat),
        (0x04, bitNumber s.tx.active + 2 * endianNumber s.tx.endian + 256 * s.tx.err.toNat),
        (0x05, s.mem.obuf.length % 65536), (0x06, s.tx.log.length % 65536), (0x07, s.tx.hck.toNat),
        (0x08, s.tx.dck.toNat), (0x09, s.mem.fbuf.length % 65536), (0x0A, s.mem.stage.length % 65536),
        (0x0B, s.mem.ibuf.length % 65536),
        (0x10, bitNumber s.rx.valid + 2 * endianNumber s.rx.endian + 256 * s.rx.err.toNat),
        (0x11, s.rx.typeTag.toNat), (0x12, s.rx.seq.toNat), (0x13, s.rx.errc.toNat), (0x14, s.rx.dsize.toNat),
        (0x15, s.rx.hck.toNat), (0x16, s.rx.dck.toNat), (0x17, s.rx.off.toNat), (0x18, s.rx.endOff.toNat),
        (0x19, s.rx.log.length % 65536),
        (0x20, s.fac.tag.toNat + 256 * bitNumber s.fac.found + 512 * bitNumber s.fac.done +
          65536 * s.fac.handler.toNat)],
      exec (.rdReg (BitVec.ofNat 8 p.1)) s = .next (s.answered .ok (BitVec.ofNat 64 p.2) 0)) ∧
    ∀ r, ¬ (r.toNat ≤ 0x0B ∨ 0x10 ≤ r.toNat ∧ r.toNat ≤ 0x19 ∨ r.toNat = 0x20) →
      exec (.rdReg r) s = .next (s.answered .illegal 0 0)

/-- SRESET puts the whole block into the reset state and answers STATUS = 0 (44_control.md R246). -/
def Obligations.SresetResetsTheBlock : Prop :=
  HasEncoding 0xFFFFFFFF#32 0x0000000F#32 (fun _ _ => .sreset) ∧
  ∀ s, ∃ t, exec .sreset s = .next t ∧ t.offPort = State.reset ∧ t.pending = s.pending.tail ∧
    t.response = some ⟨0x00000000#32, 0, 0⟩

/-! ### Buffer family -/

/-- STG_CLEAR empties STAGE and nothing else (45_buffers.md R260). -/
def Obligations.StgClearEmptiesStage : Prop :=
  HasEncoding 0xFFFFFFFF#32 0x00000010#32 (fun _ _ => .stgClear) ∧
  ∀ s : State, exec .stgClear s = .next (({ s with mem := { s.mem with stage := [] } } : State).answered .ok 0 0)

/-- STG_PUSH appends its byte to STAGE; on a full stage it raises E_OVERFLOW and changes nothing
(45_buffers.md R261). -/
def Obligations.StgPushAppendsOrOverflows : Prop :=
  HasEncoding 0xFFFF00FF#32 0x00000011#32 (fun a _ => .stgPush a) ∧
  ∀ (s : State) (b : Byte),
    (s.mem.stage.length = 2491 → exec (.stgPush b) s = .next (s.answered .overflow 0 0)) ∧
    (s.mem.stage.length ≠ 2491 → exec (.stgPush b) s =
      .next (({ s with mem := { s.mem with stage := s.mem.stage ++ [b] } } : State).answered .ok 0 0))

/-- IN_CLEAR empties IBUF and runs RX_CLEAR (45_buffers.md R262). -/
def Obligations.InClearEmptiesInput : Prop :=
  HasEncoding 0xFFFFFFFF#32 0x00000012#32 (fun _ _ => .inClear) ∧
  ∀ s : State, exec .inClear s =
    .next (({ s with mem := { s.mem with ibuf := [] }, rx := clearedRx s.rx } : State).answered .ok 0 0)

/-- IN_PUSH appends its byte to IBUF and runs RX_CLEAR; on a full IBUF it raises E_OVERFLOW and changes
nothing, the session included (45_buffers.md R263). -/
def Obligations.InPushAppendsOrOverflows : Prop :=
  HasEncoding 0xFFFF00FF#32 0x00000013#32 (fun a _ => .inPush a) ∧
  ∀ (s : State) (b : Byte),
    (s.mem.ibuf.length = 2500 → exec (.inPush b) s = .next (s.answered .overflow 0 0)) ∧
    (s.mem.ibuf.length ≠ 2500 → exec (.inPush b) s =
      .next (({ s with mem := { s.mem with ibuf := s.mem.ibuf ++ [b] }, rx := clearedRx s.rx } : State).answered
        .ok 0 0))

/-- IN_READ and FB_READ answer the byte at their index, or raise E_BOUNDS at or above the length, and
change nothing (45_buffers.md R264, R265). -/
def Obligations.IndexedReadsAnswerTheByte : Prop :=
  HasEncoding 0x0000FFFF#32 0x00000014#32 (fun _ b => .inRead b) ∧
  HasEncoding 0x0000FFFF#32 0x00000015#32 (fun _ b => .fbRead b) ∧
  ∀ (s : State) (i : BitVec 16),
    (∀ b, s.mem.ibuf[i.toNat]? = some b → exec (.inRead i) s = .next (s.answered .ok (BitVec.ofNat 64 b.toNat) 0)) ∧
    (s.mem.ibuf.length ≤ i.toNat → exec (.inRead i) s = .next (s.answered .bounds 0 0)) ∧
    (∀ b, s.mem.fbuf[i.toNat]? = some b → exec (.fbRead i) s = .next (s.answered .ok (BitVec.ofNat 64 b.toNat) 0)) ∧
    (s.mem.fbuf.length ≤ i.toNat → exec (.fbRead i) s = .next (s.answered .bounds 0 0))

/-- LOG_READ answers the record with its 1-based index, packed as 30_encoding.md R103 says, from TX.LOG
(A = 0) or RX.LOG (A = 1); index 0 or one past the log is E_BOUNDS; nothing changes (45_buffers.md R266). -/
def Obligations.LogReadAnswersTheRecord : Prop :=
  HasEncoding 0x0000FEFF#32 0x00000016#32 (fun a b => .logRead a b) ∧
  ∀ (s : State) (k : BitVec 16), ∀ p ∈ [(0#8, s.tx.log), (1#8, s.rx.log)],
    (∀ r, 1 ≤ k.toNat → p.2[k.toNat - 1]? = some r → exec (.logRead p.1 k) s =
      .next (s.answered .ok (BitVec.ofNat 64 (r.name.toNat * 2 ^ 32 + r.size.toNat * 2 ^ 16 + r.elem.toNat))
        (BitVec.ofNat 16 (typeNumber r.type)))) ∧
    (k.toNat = 0 ∨ p.2.length < k.toNat → exec (.logRead p.1 k) s = .next (s.answered .bounds 0 0))

/-- A selector with a must-be-zero bit set makes LOG_READ raise E_ILLEGAL and change nothing. Such a term
has no legal word; its meaning follows 45_buffers.md R266 (notes/assumptions/8.md). -/
def Obligations.LogReadSelectorIsChecked : Prop :=
  ∀ s a k, 2 ≤ a.toNat → exec (.logRead a k) s = .next (s.answered .illegal 0 0)

/-- NOP, RD_REG, IN_READ, FB_READ and LOG_READ change nothing of the block, whatever they answer
(20_memory.md R69, 45_buffers.md). -/
def Obligations.ReadCommandsHaveNoSideEffect : Prop :=
  ∀ s t i, (i = .nop ∨ (∃ r, i = .rdReg r) ∨ (∃ k, i = .inRead k) ∨ (∃ k, i = .fbRead k) ∨ ∃ a k, i = .logRead a k) →
    exec i s = .next t → t.offPort = s.offPort

/-! ### Field coder family -/

/-- TX_BEGIN opens a fresh session from any state: active, clean, in the byte order CFG.ENDIAN selects,
OBUF and TX.LOG empty; nothing else changes (41_field_coder.md R160). -/
def Obligations.TxBeginOpensSession : Prop :=
  HasEncoding 0xFFFFFFFF#32 0x0000002E#32 (fun _ _ => .txBegin) ∧
  ∀ s : State, exec .txBegin s =
    .next (({ s with
      tx := { s.tx with active := true, endian := s.cfgEndian, err := 0x00#8, log := [] }
      mem := { s.mem with obuf := [] } } : State).answered .ok 0 0)

/-- Each scalar write, in this order: E_STATE without a clean open session and nothing changes; E_RANGE
and poison for a DIN outside the type's range; E_OVERFLOW and poison when the payload would pass 2491 or
the log is full; else it appends the value's bytes in the session's byte order and one record, and
nothing else changes (41_field_coder.md R163 to R170). -/
def Obligations.ScalarWritesAppendOrFail : Prop :=
  (∀ p ∈ scalarWrites, HasEncoding 0x0000FFFF#32 p.2.2.1 (fun _ b => p.2.2.2 b)) ∧
  ∀ (s : State) (e : BitVec 16), ∀ p ∈ scalarWrites,
    ((s.tx.active = false ∨ s.tx.err ≠ 0x00#8) → exec (p.2.2.2 e) s = .next (s.answered .state 0 0)) ∧
    (s.tx.active = true → s.tx.err = 0x00#8 →
      (¬ fits p.1 s.din → exec (p.2.2.2 e) s = .next ((s.withTxErr .range).answered .range 0 0)) ∧
      (fits p.1 s.din → 2491 < s.mem.obuf.length + p.2.1 ∨ s.tx.log.length = Config.logCap →
        exec (p.2.2.2 e) s = .next ((s.withTxErr .overflow).answered .overflow 0 0)) ∧
      (fits p.1 s.din → s.mem.obuf.length + p.2.1 ≤ 2491 → s.tx.log.length ≠ Config.logCap →
        exec (p.2.2.2 e) s = .next ((s.wrote p.1 e (valueBytes s.tx.endian p.2.1 s.din)).answered .ok 0 0)))

/-- Each variable-length write: E_STATE without a clean open session; E_OVERFLOW and poison when the
payload would pass 2491 or the log is full; else it appends the staged bytes, after their 16-bit length
where the command has one, and one record; STAGE and all else are unchanged (41_field_coder.md R171,
R172, R173). -/
def Obligations.StagedWritesAppendOrFail : Prop :=
  (∀ p ∈ stagedWrites, HasEncoding 0x0000FFFF#32 p.2.2.1 (fun _ b => p.2.2.2 b)) ∧
  ∀ (s : State) (e : BitVec 16), ∀ p ∈ stagedWrites,
    ((s.tx.active = false ∨ s.tx.err ≠ 0x00#8) → exec (p.2.2.2 e) s = .next (s.answered .state 0 0)) ∧
    (s.tx.active = true → s.tx.err = 0x00#8 →
      (2491 < s.mem.obuf.length + (s.stagedField p.2.1).length ∨ s.tx.log.length = Config.logCap →
        exec (p.2.2.2 e) s = .next ((s.withTxErr .overflow).answered .overflow 0 0)) ∧
      (s.mem.obuf.length + (s.stagedField p.2.1).length ≤ 2491 → s.tx.log.length ≠ Config.logCap →
        exec (p.2.2.2 e) s = .next ((s.wrote p.1 e (s.stagedField p.2.1)).answered .ok 0 0)))

/-- A poisoned or closed coder session refuses every field write and FRAME_ENCODE with E_STATE, and a
decoder session that is not open refuses every field read; nothing changes, so a poisoned session keeps
its first cause (41_field_coder.md R161, 42_field_decoder.md R193, 40_frame_codec.md R131). -/
def Obligations.ClosedSessionsRefuse : Prop :=
  ∀ s i,
    ((isWrite i = true ∨ i = .frameEncode) → s.tx.active = false ∨ s.tx.err ≠ 0x00#8 →
      exec i s = .next (s.answered .state 0 0)) ∧
    (isRead i = true → s.rx.valid = false → exec i s = .next (s.answered .state 0 0))

/-! ### Field decoder family -/

/-- Each scalar read: E_STATE without an open session; E_BOUNDS when it would pass RX.END, E_OVERFLOW when
the log is full, both closing the session with the cursor kept; else DOUT is the value at the cursor in
the session's byte order, widened by the type, the cursor moves past it, one record is logged, and
nothing else changes (42_field_decoder.md R191, R194 to R200). -/
def Obligations.ScalarReadsAnswerOrFail : Prop :=
  (∀ p ∈ scalarReads, HasEncoding 0x0000FFFF#32 p.2.2.1 (fun _ b => p.2.2.2 b)) ∧
  ∀ (s : State) (e : BitVec 16), ∀ p ∈ scalarReads,
    (s.rx.valid = false → exec (p.2.2.2 e) s = .next (s.answered .state 0 0)) ∧
    (s.rx.valid = true →
      (s.rx.endOff.toNat < s.rx.off.toNat + p.2.1 →
        exec (p.2.2.2 e) s = .next ((s.withRxErr .bounds).answered .bounds 0 0)) ∧
      (s.rx.off.toNat + p.2.1 ≤ s.rx.endOff.toNat → s.rx.log.length = Config.logCap →
        exec (p.2.2.2 e) s = .next ((s.withRxErr .overflow).answered .overflow 0 0)) ∧
      (s.rx.off.toNat + p.2.1 ≤ s.rx.endOff.toNat → s.rx.log.length ≠ Config.logCap →
        exec (p.2.2.2 e) s = .next ((s.took p.1 e p.2.1).answered .ok
          (widened p.1 (bytesValue s.rx.endian (s.cursorBytes p.2.1))) 0)))

/-- RD_STRING and RD_BYTES_LP: the prefix must lie before RX.END, then the data; both together are one
field; DOUT is the length, DAUX the offset of the first data byte; a failure consumes nothing
(42_field_decoder.md R201, R203). -/
def Obligations.PrefixedReadsAnswerOrFail : Prop :=
  (∀ p ∈ prefixedReads, HasEncoding 0x0000FFFF#32 p.2.1 (fun _ b => p.2.2 b)) ∧
  ∀ (s : State) (e : BitVec 16), ∀ p ∈ prefixedReads,
    (s.rx.valid = false → exec (p.2.2 e) s = .next (s.answered .state 0 0)) ∧
    (s.rx.valid = true →
      (s.rx.endOff.toNat < s.rx.off.toNat + 2 ∨ s.rx.endOff.toNat < s.rx.off.toNat + 2 + s.prefixLength →
        exec (p.2.2 e) s = .next ((s.withRxErr .bounds).answered .bounds 0 0)) ∧
      (s.rx.off.toNat + 2 + s.prefixLength ≤ s.rx.endOff.toNat → s.rx.log.length = Config.logCap →
        exec (p.2.2 e) s = .next ((s.withRxErr .overflow).answered .overflow 0 0)) ∧
      (s.rx.off.toNat + 2 + s.prefixLength ≤ s.rx.endOff.toNat → s.rx.log.length ≠ Config.logCap →
        exec (p.2.2 e) s = .next ((s.took p.1 e (2 + s.prefixLength)).answered .ok
          (BitVec.ofNat 64 s.prefixLength) (BitVec.ofNat 16 (s.rx.off.toNat + 2)))))

/-- RD_BYTES takes the length DIN gives: E_RANGE and a closed session when DIN is 2^16 or more, E_BOUNDS
past RX.END, E_OVERFLOW on a full log; else DOUT is the length and DAUX the cursor before the read
(42_field_decoder.md R202). -/
def Obligations.RawReadAnswersOrFails : Prop :=
  HasEncoding 0x0000FFFF#32 0x00000038#32 (fun _ b => .rdBytes b) ∧
  ∀ (s : State) (e : BitVec 16),
    (s.rx.valid = false → exec (.rdBytes e) s = .next (s.answered .state 0 0)) ∧
    (s.rx.valid = true →
      (65536 ≤ s.din.toNat → exec (.rdBytes e) s = .next ((s.withRxErr .range).answered .range 0 0)) ∧
      (s.din.toNat < 65536 → s.rx.endOff.toNat < s.rx.off.toNat + s.din.toNat →
        exec (.rdBytes e) s = .next ((s.withRxErr .bounds).answered .bounds 0 0)) ∧
      (s.din.toNat < 65536 → s.rx.off.toNat + s.din.toNat ≤ s.rx.endOff.toNat → s.rx.log.length = Config.logCap →
        exec (.rdBytes e) s = .next ((s.withRxErr .overflow).answered .overflow 0 0)) ∧
      (s.din.toNat < 65536 → s.rx.off.toNat + s.din.toNat ≤ s.rx.endOff.toNat → s.rx.log.length ≠ Config.logCap →
        exec (.rdBytes e) s = .next ((s.took .byteArray e s.din.toNat).answered .ok s.din s.rx.off)))

/-- A field read sees unread payload bytes only: whatever IBUF holds below the cursor and at or above
RX.END, and whatever the other spaces hold, it does and answers the same (42_field_decoder.md R192). -/
def Obligations.ReadsSeeOnlyThePayload : Prop :=
  ∀ s t i m, isRead i = true → exec i s = .next t →
    (∀ a, s.rx.off.toNat ≤ a → a < s.rx.endOff.toNat → m.byte? .ibuf a = s.mem.byte? .ibuf a) →
    exec i { s with mem := m } = .next { t with mem := m }

/-! ### Frame codec family -/

/-- FRAME_ENCODE: E_STATE without a clean open session and nothing changes; else FBUF is the frame of
30_encoding.md R100 around OBUF, TX.HCK and TX.DCK are its checksums (TX.DCK 0x00 for an empty payload),
the session closes, DOUT is the frame's length, and nothing else changes (40_frame_codec.md R131). -/
def Obligations.FrameEncodeBuildsTheFrame : Prop :=
  HasEncoding 0xFFFFFFFF#32 0x0000002F#32 (fun _ _ => .frameEncode) ∧
  ∀ s : State,
    ((s.tx.active = false ∨ s.tx.err ≠ 0x00#8) → exec .frameEncode s = .next (s.answered .state 0 0)) ∧
    (s.tx.active = true → s.tx.err = 0x00#8 → exec .frameEncode s =
      .next (({ s with
        mem := { s.mem with fbuf := s.txFrame }
        tx := { s.tx with
          active := false
          hck := s.txFrame.getD 7 0
          dck := if s.mem.obuf.length = 0 then 0x00#8 else s.txFrame.getD (8 + s.mem.obuf.length) 0 } } : State).answered
        .ok (BitVec.ofNat 64 (if s.mem.obuf.length = 0 then 8 else 9 + s.mem.obuf.length)) 0))

/-- FRAME_DECODE accepts a frame that passes every check and opens a session on its payload: the decoded
header, the cursor 8, RX.END 8 + N, an empty log, DOUT = N; or it fails with the first failing check's
cause in the order of R133, the decoded state cleared; IBUF and all else are unchanged (40_frame_codec.md
R132, R133). -/
def Obligations.FrameDecodeValidates : Prop :=
  HasEncoding 0xFFFFFFFF#32 0x0000003E#32 (fun _ _ => .frameDecode) ∧
  ∀ s : State,
    (s.frameFault = none → exec .frameDecode s =
      .next (({ s with rx := s.acceptedRx } : State).answered .ok (BitVec.ofNat 64 s.declaredSize) 0)) ∧
    ∀ c, s.frameFault = some c →
      exec .frameDecode s = .next (({ s with rx := s.rejectedRx c } : State).answered c 0 0)

/-- Bytes after the frame are ignored: a frame that is accepted is accepted with any bytes appended to
IBUF, with the same decoded state and response (40_frame_codec.md R132, 92_eei_decisions.md D21). -/
def Obligations.TrailingBytesIgnored : Prop :=
  ∀ (s : State) (extra : List Byte), s.frameFault = none →
    ∃ t, exec .frameDecode s = .next t ∧
      exec .frameDecode { s with mem := { s.mem with ibuf := s.mem.ibuf ++ extra } } =
        .next { t with mem := { t.mem with ibuf := t.mem.ibuf ++ extra } }

/-- The checksum is the XOR of the bytes: 0x00 of none, independent of their order, additive over joining,
self-inverse, and a bit flipped in one byte flips the same bit of it (40_frame_codec.md R130). -/
def Obligations.Xor8Laws : Prop :=
  xor8 [] = 0x00#8 ∧ (∀ b bs, xor8 (b :: bs) = b ^^^ xor8 bs) ∧ (∀ a b, xor8 (a ++ b) = xor8 a ^^^ xor8 b) ∧
  (∀ a b : List Byte, a.Perm b → xor8 a = xor8 b) ∧ (∀ bs, xor8 (bs ++ [xor8 bs]) = 0x00#8) ∧
  ∀ (bs : List Byte) (j k : Nat), j < bs.length →
    xor8 (bs.modify j fun b => b ^^^ (1#8 <<< k)) = xor8 bs ^^^ (1#8 <<< k)

/-- The byte orders: `enc` lists a value's bytes least or most significant first, `dec` is the sum of
20_memory.md R61, and decoding an encoded value gives it back (section 2; notes/assumptions/10.md). -/
def Obligations.ByteOrderLaws : Prop :=
  (∀ (e : Endian) (v : BitVec 64) (w : Nat), w ≤ 8 → enc e v.toNat w = valueBytes e w v) ∧
  (∀ (e : Endian) (bs : List Byte), dec e bs = bytesValue e bs) ∧
  ∀ (e : Endian) (v w : Nat), v < 256 ^ w → dec e (enc e v w) = v

/-- Round trip of a frame: what FRAME_ENCODE builds, placed in IBUF with any bytes after it, is accepted
by FRAME_DECODE in the same byte order, with the header, data size, checksums and payload it was built
from (40_frame_codec.md R134). -/
def Obligations.FrameRoundTrip : Prop :=
  ∀ (s t u : State) (extra : List Byte), s.tx.active = true → s.tx.err = 0x00#8 → s.mem.obuf.length ≤ 2491 →
    exec .frameEncode s = .next t → u.mem.ibuf = t.mem.fbuf ++ extra → u.cfgEndian = s.tx.endian →
    ∃ v, exec .frameDecode u = .next v ∧
      v.rx = ⟨true, s.tx.endian, 0x00#8, s.tx.typeTag, s.tx.seq, s.tx.errc, BitVec.ofNat 16 s.mem.obuf.length,
        t.tx.hck, t.tx.dck, 8, BitVec.ofNat 16 (8 + s.mem.obuf.length), []⟩ ∧
      (∀ k, k < s.mem.obuf.length → v.mem.byte? .ibuf (8 + k) = s.mem.obuf[k]?) ∧
      v.response = some ⟨statusWord .ok false u.tx v.rx, BitVec.ofNat 64 s.mem.obuf.length, 0⟩

/-- Checksum sensitivity: of a frame FRAME_DECODE accepts, one bit flipped in byte 0 gives E_FMT_INIT, in
bytes 1 to 7 E_FMT_HCK, in the payload or the data checksum E_FMT_DCK, and after the frame nothing new;
any other data checksum byte gives E_FMT_DCK (40_frame_codec.md R135). -/
def Obligations.SingleBitFlipsAreDetected : Prop :=
  ∀ (s : State), s.frameFault = none → ∀ (n : Nat), n = s.declaredSize →
    (∀ j k, j < s.mem.ibuf.length → k < 8 →
      let s' : State := { s with mem := { s.mem with ibuf := s.mem.ibuf.modify j fun b => b ^^^ (1#8 <<< k) } }
      (j = 0 → exec .frameDecode s' = .next (({ s' with rx := s'.rejectedRx .fmtInit } : State).answered .fmtInit 0 0)) ∧
      (1 ≤ j ∧ j ≤ 7 →
        exec .frameDecode s' = .next (({ s' with rx := s'.rejectedRx .fmtHck } : State).answered .fmtHck 0 0)) ∧
      (0 < n ∧ 8 ≤ j ∧ j ≤ 8 + n →
        exec .frameDecode s' = .next (({ s' with rx := s'.rejectedRx .fmtDck } : State).answered .fmtDck 0 0)) ∧
      (8 ≤ j ∧ n = 0 ∨ 8 + n < j →
        exec .frameDecode s' = .next (({ s' with rx := s.acceptedRx } : State).answered .ok (BitVec.ofNat 64 n) 0))) ∧
    ∀ b, 0 < n → b ≠ s.mem.byte .ibuf (8 + n) →
      let s' : State := { s with mem := { s.mem with ibuf := s.mem.ibuf.set (8 + n) b } }
      exec .frameDecode s' = .next (({ s' with rx := s'.rejectedRx .fmtDck } : State).answered .fmtDck 0 0)

/-- Size bound: no frame FRAME_ENCODE builds from a reachable payload is longer than 2500 bytes, and a
frame whose header passes its checksum and declares more than 2491 bytes is rejected with E_FMT_SIZE
(40_frame_codec.md R137). -/
def Obligations.FrameSizeIsBounded : Prop :=
  (∀ s t, s.Inv → exec .frameEncode s = .next t → t.mem.fbuf.length ≤ 2500) ∧
  ∀ s : State, 8 ≤ s.mem.ibuf.length → s.mem.byte .ibuf 0 = 0x45#8 → s.inputXor 0 7 = s.mem.byte .ibuf 7 →
    2491 < s.declaredSize →
    ∃ t r, exec .frameDecode s = .next t ∧ t.response = some r ∧ r.cause = 0x04#8 ∧ t.rx.valid = false

/-- FRAME_DECODE and FAC_DISPATCH are idempotent: a second run on the state the first left changes nothing of
the block and gives the same response (20_memory.md R69). -/
def Obligations.DecodingAgainChangesNothing : Prop :=
  ∀ s t i, (i = .frameDecode ∨ i = .facDispatch) → exec i s = .next t →
    exec i t = .next { t with pending := t.pending.tail }

/-! ### Factory family -/

/-- FAC_REGISTER sets the tag's entry, whatever it held, and nothing else; every other entry is unchanged
(43_factory.md R220). -/
def Obligations.FacRegisterSetsTheEntry : Prop :=
  HasEncoding 0x000000FF#32 0x00000040#32 (fun a b => .facRegister a b) ∧
  ∀ (s : State) (t : Byte) (h : BitVec 16),
    ∃ u, exec (.facRegister t h) s = .next u ∧ u.entry t = ⟨true, h⟩ ∧ (∀ t', t' ≠ t → u.entry t' = s.entry t') ∧
      u = ({ s with registry := u.registry } : State).answered .ok 0 0

/-- FAC_DISPATCH: E_FMT_SHORT below 8 bytes and nothing changes; NOHANDLER with CAUSE 0 for an unregistered
tag, only the last-dispatch registers written, however malformed the frame; for a registered tag the
registers, then FRAME_DECODE's effect, DOUT the handler id and DAUX 1 even when the decode fails
(43_factory.md R221). -/
def Obligations.FacDispatchLooksUpThenDecodes : Prop :=
  HasEncoding 0xFFFFFFFF#32 0x00000041#32 (fun _ _ => .facDispatch) ∧
  ∀ s : State,
    (s.mem.ibuf.length < 8 → exec .facDispatch s = .next (s.answered .fmtShort 0 0)) ∧
    (8 ≤ s.mem.ibuf.length →
      let t := s.mem.byte .ibuf 1
      ((s.entry t).valid = false → exec .facDispatch s =
        .next { s with
          fac := ⟨true, t, false, 0x0000#16⟩
          response := some ⟨statusWord .ok true s.tx s.rx, 0, 0⟩
          pending := s.pending.tail }) ∧
      ((s.entry t).valid = true → s.frameFault = none → exec .facDispatch s =
        .next (({ s with fac := ⟨true, t, true, (s.entry t).handler⟩, rx := s.acceptedRx } : State).answered
          .ok ((s.entry t).handler.setWidth 64) 1)) ∧
      ((s.entry t).valid = true → ∀ c, s.frameFault = some c → exec .facDispatch s =
        .next (({ s with fac := ⟨true, t, true, (s.entry t).handler⟩, rx := s.rejectedRx c } : State).answered
          c ((s.entry t).handler.setWidth 64) 1)))

/-- The last registration wins: after two registrations of a tag, with others of other tags in between, a
dispatch of a frame of that tag reports the second handler (43_factory.md R220, R222). -/
def Obligations.LastRegistrationWins : Prop :=
  ∀ (s s1 s2 s3 : State) (t t' : Byte) (h h' h'' : BitVec 16), t' ≠ t →
    exec (.facRegister t h) s = .next s1 → exec (.facRegister t h') s1 = .next s2 →
    exec (.facRegister t' h'') s2 = .next s3 → 8 ≤ s.mem.ibuf.length → s.mem.byte .ibuf 1 = t →
    ∃ u r, exec .facDispatch s3 = .next u ∧ u.response = some r ∧ u.fac = ⟨true, t, true, h'⟩ ∧
      r.dout = h'.setWidth 64 ∧ r.daux = 1 ∧ r.noHandler = false

/-! ### Whole-machine rules -/

/-- Every register and table changes only by the commands 10_state.md names as its writers, SRESET among
them (sections 3 to 6). -/
def Obligations.StateChangesOnlyByItsWriters : Prop :=
  ∀ s t i, exec i s = .next t → i ≠ .sreset →
    ((∀ a, i ≠ .setEndian a) → t.cfgEndian = s.cfgEndian) ∧
    ((∀ a, i ≠ .setType a) → t.tx.typeTag = s.tx.typeTag) ∧
    ((∀ a, i ≠ .setSeq a) → t.tx.seq = s.tx.seq) ∧
    ((∀ a, i ≠ .setErrc a) → t.tx.errc = s.tx.errc) ∧
    (i ≠ .txBegin ∧ i ≠ .frameEncode → t.tx.active = s.tx.active) ∧
    (i ≠ .txBegin → t.tx.endian = s.tx.endian) ∧
    (i ≠ .txBegin ∧ isWrite i = false → t.tx.err = s.tx.err ∧ t.tx.log = s.tx.log) ∧
    (i ≠ .frameEncode → t.tx.hck = s.tx.hck ∧ t.tx.dck = s.tx.dck) ∧
    (clearsRx i = false ∧ isRead i = false → t.rx = s.rx) ∧
    (i ≠ .frameDecode ∧ i ≠ .facDispatch → t.rx.endian = s.rx.endian) ∧
    (clearsRx i = false → t.rx.typeTag = s.rx.typeTag ∧ t.rx.seq = s.rx.seq ∧ t.rx.errc = s.rx.errc ∧
      t.rx.dsize = s.rx.dsize ∧ t.rx.hck = s.rx.hck ∧ t.rx.dck = s.rx.dck ∧ t.rx.endOff = s.rx.endOff) ∧
    ((∀ a h, i ≠ .facRegister a h) → t.registry = s.registry) ∧
    (i ≠ .facDispatch → t.fac = s.fac)

/-- Byte order is latched at session start: TX_BEGIN copies CFG.ENDIAN into TX.ENDIAN, FRAME_DECODE and a
FAC_DISPATCH that finds a handler copy it into RX.ENDIAN, no other command but SRESET changes either, and
every other command (but SET_ENDIAN, which writes CFG.ENDIAN, and RD_REG CFG, which reads it) does and
answers the same whatever CFG.ENDIAN holds (70_reset_and_hazards.md R325). -/
def Obligations.ByteOrderIsLatched : Prop :=
  ∀ s t i, exec i s = .next t →
    (i = .txBegin → t.tx.endian = s.cfgEndian) ∧
    (i = .frameDecode → t.rx.endian = s.cfgEndian) ∧
    (i = .facDispatch → 8 ≤ s.mem.ibuf.length → (s.entry (s.mem.byte .ibuf 1)).valid = true →
      t.rx.endian = s.cfgEndian) ∧
    (i ≠ .txBegin → i ≠ .sreset → t.tx.endian = s.tx.endian) ∧
    (i ≠ .frameDecode → i ≠ .facDispatch → i ≠ .sreset → t.rx.endian = s.rx.endian) ∧
    (i ≠ .txBegin → i ≠ .frameDecode → i ≠ .facDispatch → i ≠ .sreset → (∀ a, i ≠ .setEndian a) → i ≠ .rdReg 0x00#8 →
      ∀ e, exec i { s with cfgEndian := e } = .next { t with cfgEndian := e })

/-- Every byte of a space, read by its address, changes only by the commands 20_memory.md R60 names as
the space's writers (section 1; SRESET empties every space). -/
def Obligations.BytesChangeOnlyByTheirWriters : Prop :=
  ∀ s t i sp, exec i s = .next t → writesSpace i sp = false → ∀ a, t.mem.byte? sp a = s.mem.byte? sp a

/-- An appending command stores at the space's length: outside the bytes of its span every byte of every
space reads as before, whether it succeeds or fails (20_memory.md sections 1 and 3). -/
def Obligations.AppendsStoreAtTheLength : Prop :=
  ∀ s t i sp a n, exec i s = .next t → storedSpan i s = some (sp, a, n) →
    (∀ sp' a', ¬ (sp' = sp ∧ a ≤ a' ∧ a' < a + n) → t.mem.byte? sp' a' = s.mem.byte? sp' a') ∧
    ∀ r, t.response = some r → r.cause = 0x00#8 → t.mem.len sp = s.mem.len sp + n

/-- A field log only grows at its end, by one record, when a field command of its channel succeeds, or is
emptied whole; otherwise it is unchanged (10_state.md R34, section 5). -/
def Obligations.LogsOnlyAppendOrEmpty : Prop :=
  ∀ s t i, exec i s = .next t →
    (t.tx.log = s.tx.log ∨ (isWrite i = true ∧ ∃ r, t.tx.log = s.tx.log ++ [r]) ∨
      ((i = .txBegin ∨ i = .sreset) ∧ t.tx.log = [])) ∧
    (t.rx.log = s.rx.log ∨ (isRead i = true ∧ ∃ r, t.rx.log = s.rx.log ++ [r]) ∨
      (clearsRx i = true ∧ t.rx.log = []))

/-- A change of IBUF ends the decoder session (70_reset_and_hazards.md R324). -/
def Obligations.InputChangeEndsSession : Prop :=
  ∀ s t i, exec i s = .next t → t.mem.ibuf ≠ s.mem.ibuf →
    t.rx.valid = false ∧ t.rx.err = 0x00#8 ∧ t.rx.log = [] ∧ t.rx.off = 0 ∧ t.rx.endOff = 0

/-- A coder session opens only by TX_BEGIN and closes only by a FRAME_ENCODE of a clean session or by reset;
TX.ERR is cleared only by TX_BEGIN and reset, and keeps its first cause; a decoder session opens only by
FRAME_DECODE or FAC_DISPATCH and closes only by a command that may run RX_CLEAR or by a field read that fails;
RX.ERR keeps its first cause until RX_CLEAR (10_state.md R25, R30). -/
def Obligations.SessionsOpenOnlyByTheirCommands : Prop :=
  ∀ s t i, s.Inv → exec i s = .next t →
    (t.tx.active = true → s.tx.active = true ∨ i = .txBegin) ∧
    (t.tx.active = false → s.tx.active = false ∨ i = .frameEncode ∧ s.tx.err = 0x00#8 ∨ i = .sreset) ∧
    (s.tx.err ≠ 0x00#8 → t.tx.err = s.tx.err ∨ i = .txBegin ∨ i = .sreset) ∧
    (t.rx.valid = true → s.rx.valid = true ∨ i = .frameDecode ∨ i = .facDispatch) ∧
    (t.rx.valid = false → s.rx.valid = false ∨ clearsRx i = true ∨
      isRead i = true ∧ ∃ r, t.response = some r ∧ r.cause ≠ 0x00#8) ∧
    (s.rx.err ≠ 0x00#8 → t.rx.err = s.rx.err ∨ clearsRx i = true)

/-- What each failure leaves: a command that reports a cause other than OK changed the block exactly as
the table of 60_exceptions.md R286 says. -/
def Obligations.FailuresLeaveTheListedState : Prop :=
  ∀ s t i r (c : Cause), exec i s = .next t → t.response = some r → r.cause = c.code → c ≠ .ok →
    t.offPort = (failureState i c s).offPort ∧
    (i ≠ .facDispatch ∨ c = .fmtShort → r.dout = 0 ∧ r.daux = 0)

/-- A command raises only the causes 60_exceptions.md R282 lists for it (section 1; that each listed cause
is reached is not said here). -/
def Obligations.CommandsRaiseOnlyTheirCauses : Prop :=
  ∀ s t i r, exec i s = .next t → t.response = some r → ∃ c ∈ .ok :: raisable i, r.cause = c.code

/-- E_UNSUPPORTED and the codes above 0x0C are in no response (60_exceptions.md R289, R280). -/
def Obligations.ReservedCausesAreNeverRaised : Prop :=
  ∀ s t r, step s = .next t → t.response = some r → r.cause ≠ 0x07#8 ∧ r.cause.toNat ≤ 0x0C

/-- The channels are separate: a command of the coder side gives the same TX channel, payload, frame,
stage and result whatever the RX channel, IBUF, the registry and the last dispatch hold, and a field read
or FRAME_DECODE the same RX channel and result whatever the TX channel, OBUF, FBUF and STAGE hold
(10_state.md section 1). -/
def Obligations.ChannelsAreIndependent : Prop :=
  (∀ (s t : State) i (rx : Rx) (ibuf : List Byte) (reg : Vector RegEntry 256) (fac : Fac),
    (isWrite i = true ∨ i = .txBegin ∨ i = .frameEncode ∨ i = .stgClear ∨ (∃ b, i = .stgPush b) ∨ ∃ k, i = .fbRead k) →
    exec i s = .next t →
    ∃ u, exec i { s with rx := rx, mem := { s.mem with ibuf := ibuf }, registry := reg, fac := fac } = .next u ∧
      u.tx = t.tx ∧ u.mem.obuf = t.mem.obuf ∧ u.mem.fbuf = t.mem.fbuf ∧ u.mem.stage = t.mem.stage ∧
      u.response.map (fun r => (r.cause, r.dout, r.daux)) = t.response.map (fun r => (r.cause, r.dout, r.daux))) ∧
  ∀ (s t : State) i (tx : Tx) (obuf fbuf stage : List Byte),
    (isRead i = true ∨ i = .frameDecode ∨ i = .facDispatch) → exec i s = .next t →
    ∃ u, exec i { s with tx := tx, mem := { s.mem with obuf := obuf, fbuf := fbuf, stage := stage } } = .next u ∧
      u.rx = t.rx ∧ u.fac = t.fac ∧
      u.response.map (fun r => (r.cause, r.dout, r.daux)) = t.response.map (fun r => (r.cause, r.dout, r.daux))

/-- Order symmetry over a whole message of scalar fields: the fields written in one session and encoded,
the frame placed in IBUF and decoded in the same byte order, and the fields read in the same order with
the same types, labels and element indices: every command succeeds, each read returns the DIN that was
written, RX.LOG equals TX.LOG, and the cursor ends at RX.END (42_field_decoder.md R204, 40_frame_codec.md
R134). -/
def Obligations.ScalarMessageRoundTrip : Prop :=
  ∀ (fs : List ScalarField) (s : State),
    (∀ f ∈ fs, isScalar f.type ∧ fits f.type f.value) → (fs.map fun f => wireBytes f.type).sum ≤ 2491 →
    s.tx.active = true → s.tx.err = 0x00#8 → s.mem.obuf = [] → s.tx.log = [] →
    s.pending = fs.map ScalarField.writeMove ++ [plainMove .frameEncode] →
    ∃ t, runSteps (fs.length + 1) s = .next t ∧
      (∀ r ∈ observe (fs.length + 1) s, r.cause = 0x00#8) ∧
      ∀ u : State, u.mem.ibuf = t.mem.fbuf → u.cfgEndian = s.tx.endian →
        u.pending = plainMove .frameDecode :: fs.map ScalarField.readMove →
        ∃ v, runSteps (fs.length + 1) u = .next v ∧
          (∀ r ∈ observe (fs.length + 1) u, r.cause = 0x00#8) ∧
          (observe (fs.length + 1) u).map Response.dout =
            BitVec.ofNat 64 (fs.map fun f => wireBytes f.type).sum :: fs.map ScalarField.value ∧
          v.rx.log = t.tx.log ∧ v.rx.off = v.rx.endOff
end

