-- ==== Sys2Proof/Laws/Memory.lean ====
section
/-! SUPPORT. The laws of the byte spaces: a write is read back, leaves every other place alone, and
keeps the canonical form. -/

namespace Sys2Proof.Machine

@[simp] theorem Memory.get_set_same (m : Memory) (sp : Space) (bs : List Byte) : (m.set sp bs).get sp = bs := by
  cases sp <;> rfl

theorem Memory.get_set_other (m : Memory) {sp sp' : Space} (bs : List Byte) (h : sp' ≠ sp) :
    (m.set sp bs).get sp' = m.get sp' := by
  cases sp <;> cases sp' <;> first | rfl | exact absurd rfl h

@[simp] theorem Memory.get_push_same (m : Memory) (sp : Space) (bs : List Byte) :
    (m.push sp bs).get sp = m.get sp ++ bs := Memory.get_set_same ..

theorem Memory.get_push_other (m : Memory) {sp sp' : Space} (bs : List Byte) (h : sp' ≠ sp) :
    (m.push sp bs).get sp' = m.get sp' := Memory.get_set_other _ _ h

@[simp] theorem Memory.len_set_same (m : Memory) (sp : Space) (bs : List Byte) :
    (m.set sp bs).len sp = bs.length := by simp [Memory.len]

@[simp] theorem Memory.len_push_same (m : Memory) (sp : Space) (bs : List Byte) :
    (m.push sp bs).len sp = m.len sp + bs.length := by simp [Memory.len]

theorem Memory.len_set_other (m : Memory) {sp sp' : Space} (bs : List Byte) (h : sp' ≠ sp) :
    (m.set sp bs).len sp' = m.len sp' := by rw [Memory.len, Memory.get_set_other _ _ h, Memory.len]

/-- An append leaves every address below the old length as it was. -/
theorem Memory.byte?_push_below (m : Memory) (sp : Space) (bs : List Byte) {a : Nat} (h : a < m.len sp) :
    (m.push sp bs).byte? sp a = m.byte? sp a := by
  rw [Memory.byte?, Memory.get_push_same, List.getElem?_append_left h, Memory.byte?]

/-- The bytes of an append are read back at the old length. -/
theorem Memory.byte?_push_new (m : Memory) (sp : Space) (bs : List Byte) (k : Nat) :
    (m.push sp bs).byte? sp (m.len sp + k) = bs[k]? := by
  rw [Memory.byte?, Memory.get_push_same, Memory.len, List.getElem?_append_right (Nat.le_add_right ..)]
  simp

/-- A write to one space leaves every byte of the others alone. -/
theorem Memory.byte?_set_other (m : Memory) {sp sp' : Space} (bs : List Byte) (h : sp' ≠ sp) (a : Nat) :
    (m.set sp bs).byte? sp' a = m.byte? sp' a := by
  rw [Memory.byte?, Memory.get_set_other _ _ h, Memory.byte?]

theorem Memory.byte_of_byte? {m : Memory} {sp : Space} {a : Nat} {b : Byte} (h : m.byte? sp a = some b) :
    m.byte sp a = b := by simp [Memory.byte, h]

theorem readFrom_length (sp : Space) (a n : Nat) (bs : List Byte) : (readFrom sp a n bs).length = n := by
  induction n generalizing a bs with
  | zero => rfl
  | succ n ih => cases bs <;> simp [readFrom, ih]

@[simp] theorem Memory.read_length (m : Memory) (sp : Space) (a n : Nat) : (m.read sp a n).length = n :=
  readFrom_length ..

theorem readFrom_eq_take (sp : Space) (a : Nat) {n : Nat} {bs : List Byte} (h : n ≤ bs.length) :
    readFrom sp a n bs = bs.take n := by
  induction n generalizing a bs with
  | zero => simp [readFrom]
  | succ n ih =>
    cases bs with
    | nil => simp at h
    | cons b bs => simp [readFrom, ih (a + 1) (Nat.le_of_succ_le_succ h)]

/-- Within the space's length, `MemRead` gives the bytes the space holds; no free value is read. -/
theorem Memory.read_eq_take (m : Memory) (sp : Space) {a n : Nat} (h : a + n ≤ m.len sp) :
    m.read sp a n = ((m.get sp).drop a).take n := by
  have : n ≤ ((m.get sp).drop a).length := by simp [Memory.len] at *; omega
  exact readFrom_eq_take _ _ this

/-- What the canonical form says. -/
theorem Memory.wf_iff (m : Memory) :
    m.wf = true ↔ ∀ sp, m.len sp ≤ Config.capacity sp := by
  simp only [Memory.wf, Bool.and_eq_true, decide_eq_true_eq]
  constructor
  · rintro ⟨⟨h1, h2⟩, h3, h4⟩ sp
    cases sp <;> assumption
  · intro h
    exact ⟨⟨h _, h _⟩, h _, h _⟩

/-- A write of at most the capacity keeps the canonical form. -/
theorem Memory.wf_set {m : Memory} (h : m.wf = true) {sp : Space} {bs : List Byte}
    (hb : bs.length ≤ Config.capacity sp) : (m.set sp bs).wf = true := by
  rw [Memory.wf_iff] at *
  intro sp'
  by_cases e : sp' = sp
  · subst e; simpa using hb
  · rw [Memory.len_set_other _ _ e]; exact h sp'

/-- An append that fits keeps the canonical form. -/
theorem Memory.wf_push {m : Memory} (h : m.wf = true) {sp : Space} {bs : List Byte}
    (hb : m.len sp + bs.length ≤ Config.capacity sp) : (m.push sp bs).wf = true :=
  Memory.wf_set h (by simpa [Memory.len] using hb)

/-- The memory after reset is in canonical form. -/
theorem reset_mem_wf : State.reset.mem.wf = true := by decide

/-- The addresses of a space's cells rise strictly. -/
theorem cellsFrom_rising (a : Nat) (bs : List Byte) :
    ((cellsFrom a bs).map Prod.fst).Pairwise (· < ·) ∧ ∀ c ∈ cellsFrom a bs, a ≤ c.1 := by
  induction bs generalizing a with
  | nil => simp [cellsFrom]
  | cons b bs ih =>
    obtain ⟨h1, h2⟩ := ih (a + 1)
    refine ⟨?_, ?_⟩
    · simp only [cellsFrom, List.map_cons, List.pairwise_cons, List.mem_map, forall_exists_index, and_imp]
      exact ⟨fun x c hc e => by have := h2 c hc; omega, h1⟩
    · intro c hc
      simp only [cellsFrom, List.mem_cons] at hc
      rcases hc with rfl | hc
      · exact Nat.le_refl _
      · have := h2 c hc; omega

theorem Memory.cells_rising (m : Memory) (sp : Space) : ((m.cells sp).map Prod.fst).Pairwise (· < ·) :=
  (cellsFrom_rising 0 _).1

end Sys2Proof.Machine
end

