-- ==== Sys2Proof/Laws/Operands.lean ====
section
/-! SUPPORT. The sizes of encoded values and frames. -/

namespace Sys2Proof.Machine

@[simp] theorem encLittle_length (w v : Nat) : (encLittle w v).length = w := by
  induction w generalizing v with
  | zero => rfl
  | succ w ih => simp [encLittle, ih]

@[simp] theorem enc_length (e : Endian) (v w : Nat) : (enc e v w).length = w := by
  cases e <;> simp [enc]

@[simp] theorem lengthPrefixed_length (e : Endian) (bs : List Byte) :
    (lengthPrefixed e bs).length = 2 + bs.length := by simp [lengthPrefixed]

@[simp] theorem headerBytes_length (e : Endian) (t : Byte) (seq : BitVec 16) (errc : Byte) (n : Nat) :
    (headerBytes e t seq errc n).length = 7 := by simp [headerBytes]

@[simp] theorem xor8_nil : xor8 [] = 0#8 := rfl

@[simp] theorem xor8_singleton (b : Byte) : xor8 [b] = b := by simp [xor8]

/-- A frame's bytes 0 to 6 are its header, byte 7 their checksum. -/
theorem buildFrame_eq (e : Endian) (t : Byte) (seq : BitVec 16) (errc : Byte) (p : List Byte) :
    buildFrame e t seq errc p =
      headerBytes e t seq errc p.length ++ [xor8 (headerBytes e t seq errc p.length)] ++
        (if p = [] then [] else p ++ [xor8 p]) := by
  by_cases h : p = [] <;> simp [buildFrame, h]

@[simp] theorem code_ok : Cause.ok.code = 0x00#8 := rfl

theorem code_injective {c d : Cause} (h : c.code = d.code) : c = d := by
  cases c <;> cases d <;> first | rfl | exact absurd h (by decide)

end Sys2Proof.Machine
end

