-- ==== Sys2Proof/Laws/Ops.lean ====
section
/-! SUPPORT. For each shared operation, all it can do, said once; proofs cite these and do not unfold
the operations. -/

namespace Sys2Proof.Machine

/-! ### The ends of a command -/

@[simp] theorem State.respond_eq (s : State) (d : BitVec 64) (a : BitVec 16) :
    s.respond d a = .next (s.finish .ok false d a) := rfl

@[simp] theorem State.respondNoHandler_eq (s : State) : s.respondNoHandler = .next (s.finish .ok true 0 0) := rfl

@[simp] theorem State.raise_eq (s : State) (c : Cause) : s.raise c = .next (s.finish c false 0 0) := rfl

@[simp] theorem State.raiseDispatched_eq (s : State) (c : Cause) :
    s.raiseDispatched c = .next (s.finish c false (s.fac.handler.setWidth 64) 1) := rfl

@[simp] theorem State.poison_eq (s : State) (c : Cause) : s.poison c = .next ((s.setTxErr c).finish c false 0 0) := rfl

@[simp] theorem State.rpoison_eq (s : State) (c : Cause) :
    s.rpoison c = .next ((s.setRxErr c).finish c false 0 0) := rfl

theorem State.txClosed_eq_false {s : State} (ha : s.tx.active = true) (he : s.tx.err = 0) : s.txClosed = false := by
  simp [State.txClosed, Tx.poisoned, ha, he]

theorem State.txClosed_eq_false_iff (s : State) : s.txClosed = false ↔ s.tx.active = true ∧ s.tx.err = 0 := by
  simp [State.txClosed, Tx.poisoned]

/-! ### Field writes -/

/-- All a field write past its operand check can do. -/
theorem writeField_cases (t : FieldType) (e : BitVec 16) (bs : List Byte) (s : State) :
    ((2491 < s.mem.len .obuf + bs.length ∨ s.tx.log.length = Config.logCap) ∧
      writeField t e bs s = s.poison .overflow) ∨
    (s.mem.len .obuf + bs.length ≤ 2491 ∧ s.tx.log.length ≠ Config.logCap ∧
      writeField t e bs s = (s.appendField t e bs).respond 0 0) := by
  unfold writeField
  split
  · exact .inl ⟨.inl ‹_›, rfl⟩
  · split
    · exact .inl ⟨.inr ‹_›, rfl⟩
    · exact .inr ⟨Nat.le_of_not_lt ‹_›, ‹_›, rfl⟩

/-- All a scalar write can do. -/
theorem writeScalar_cases (t : FieldType) (e : BitVec 16) (s : State) :
    (s.txClosed = true ∧ writeScalar t e s = s.raise .state) ∨
    (s.txClosed = false ∧ inRange t s.din = false ∧ writeScalar t e s = s.poison .range) ∨
    (s.txClosed = false ∧ inRange t s.din = true ∧
      writeScalar t e s = writeField t e (enc s.tx.endian s.din.toNat (scalarWidth t)) s) := by
  unfold writeScalar
  cases hc : s.txClosed <;> cases hr : inRange t s.din <;> simp

/-- All a variable-length write can do. -/
theorem writeBytes_cases (t : FieldType) (e : BitVec 16) (bs : List Byte) (s : State) :
    (s.txClosed = true ∧ writeBytes t e bs s = s.raise .state) ∨
    (s.txClosed = false ∧ writeBytes t e bs s = writeField t e bs s) := by
  unfold writeBytes
  cases hc : s.txClosed <;> simp

/-! ### Field reads -/

/-- All a field read past its session check can do. -/
theorem readField_cases (t : FieldType) (e : BitVec 16) (n : Nat) (d : BitVec 64) (a : BitVec 16) (s : State) :
    (s.rx.endOff.toNat < s.rx.off.toNat + n ∧ readField t e n d a s = s.rpoison .bounds) ∨
    (s.rx.off.toNat + n ≤ s.rx.endOff.toNat ∧ s.rx.log.length = Config.logCap ∧
      readField t e n d a s = s.rpoison .overflow) ∨
    (s.rx.off.toNat + n ≤ s.rx.endOff.toNat ∧ s.rx.log.length ≠ Config.logCap ∧
      readField t e n d a s = (s.consume t e n).respond d a) := by
  unfold readField
  split
  · exact .inl ⟨‹_›, rfl⟩
  · split
    · exact .inr (.inl ⟨Nat.le_of_not_lt ‹_›, ‹_›, rfl⟩)
    · exact .inr (.inr ⟨Nat.le_of_not_lt ‹_›, ‹_›, rfl⟩)

/-- All a scalar read can do. -/
theorem readScalar_cases (t : FieldType) (e : BitVec 16) (s : State) :
    (s.rx.valid = false ∧ readScalar t e s = s.raise .state) ∨
    (s.rx.valid = true ∧ readScalar t e s =
      readField t e (scalarWidth t) (extend t (s.cursorValue (scalarWidth t))) 0 s) := by
  unfold readScalar
  cases hv : s.rx.valid <;> simp

/-- All a length-prefixed read can do. -/
theorem readPrefixed_cases (t : FieldType) (e : BitVec 16) (s : State) :
    (s.rx.valid = false ∧ readPrefixed t e s = s.raise .state) ∨
    (s.rx.valid = true ∧ s.rx.endOff.toNat < s.rx.off.toNat + 2 ∧ readPrefixed t e s = s.rpoison .bounds) ∨
    (s.rx.valid = true ∧ s.rx.off.toNat + 2 ≤ s.rx.endOff.toNat ∧ readPrefixed t e s =
      readField t e (2 + s.cursorValue 2) (BitVec.ofNat 64 (s.cursorValue 2))
        (BitVec.ofNat 16 (s.rx.off.toNat + 2)) s) := by
  unfold readPrefixed
  cases hv : s.rx.valid
  · simp
  · by_cases h : s.rx.endOff.toNat < s.rx.off.toNat + 2
    · simp [h]
    · simp [h]; omega

/-- All RD_BYTES can do. -/
theorem execRdBytes_cases (e : BitVec 16) (s : State) :
    (s.rx.valid = false ∧ execRdBytes e s = s.raise .state) ∨
    (s.rx.valid = true ∧ s.din.extractLsb' 16 48 ≠ 0#48 ∧ execRdBytes e s = s.rpoison .range) ∨
    (s.rx.valid = true ∧ s.din.extractLsb' 16 48 = 0#48 ∧ execRdBytes e s =
      readField .byteArray e (s.din.extractLsb' 0 16).toNat ((s.din.extractLsb' 0 16).setWidth 64) s.rx.off s) := by
  unfold execRdBytes
  cases hv : s.rx.valid
  · simp
  · by_cases h : s.din.extractLsb' 16 48 = 0#48 <;> simp [h]

/-! ### Buffers and logs -/

/-- All an indexed read of a space can do. -/
theorem readIndexed_cases (sp : Space) (i : BitVec 16) (s : State) :
    (∃ b, s.mem.byte? sp i.toNat = some b ∧ readIndexed sp i s = s.respond (b.setWidth 64) 0) ∨
    (s.mem.byte? sp i.toNat = none ∧ readIndexed sp i s = s.raise .bounds) := by
  unfold readIndexed
  cases h : s.mem.byte? sp i.toNat
  · exact .inr ⟨rfl, rfl⟩
  · exact .inl ⟨_, rfl, rfl⟩

/-- All LOG_READ can do. -/
theorem execLogRead_cases (a : BitVec 8) (k : BitVec 16) (s : State) :
    (selectorOk a = false ∧ execLogRead a k s = s.raise .illegal) ∨
    (selectorOk a = true ∧ logRecord (if a.getLsbD 0 then s.rx.log else s.tx.log) k = none ∧
      execLogRead a k s = s.raise .bounds) ∨
    (selectorOk a = true ∧ ∃ r, logRecord (if a.getLsbD 0 then s.rx.log else s.tx.log) k = some r ∧
      execLogRead a k s = s.respond (recordWord r) ((typeCode r.type).setWidth 16)) := by
  unfold execLogRead
  cases ha : selectorOk a
  · simp
  · cases hr : logRecord (if a.getLsbD 0 then s.rx.log else s.tx.log) k <;> simp

/-- All RD_REG can do. -/
theorem execRdReg_cases (r : BitVec 8) (s : State) :
    (∃ v, regValue s r = some v ∧ execRdReg r s = s.respond v 0) ∨
    (regValue s r = none ∧ execRdReg r s = s.raise .illegal) := by
  unfold execRdReg
  cases h : regValue s r
  · exact .inr ⟨rfl, rfl⟩
  · exact .inl ⟨_, rfl, rfl⟩

/-! ### Frames and dispatch -/

/-- What steps 4 and 5 of FRAME_DECODE pass (40_frame_codec.md R132). -/
theorem checkPayload_ok {m : Memory} {e : Endian} {n : Nat} {h : Header} (hc : checkPayload m e n = .ok h) :
    h.dsize = n ∧ h.typeTag = m.byte .ibuf 1 ∧ h.seq = BitVec.ofNat 16 (dec e (m.read .ibuf 2 2)) ∧
      h.errc = m.byte .ibuf 4 ∧ h.hck = m.byte .ibuf 7 ∧
      (n = 0 ∧ h.dck = 0#8 ∨
        0 < n ∧ 9 + n ≤ m.len .ibuf ∧ xor8 (m.read .ibuf 8 n) = m.byte .ibuf (8 + n) ∧
          h.dck = m.byte .ibuf (8 + n)) := by
  unfold checkPayload at hc
  by_cases h0 : n = 0
  · rw [if_pos h0] at hc
    cases hc
    exact ⟨rfl, rfl, rfl, rfl, rfl, .inl ⟨h0, rfl⟩⟩
  by_cases h1 : m.len .ibuf < 8 + n + 1
  · rw [if_neg h0, if_pos h1] at hc
    cases hc
  by_cases h2 : xor8 (m.read .ibuf 8 n) = m.byte .ibuf (8 + n)
  · rw [if_neg h0, if_neg h1, if_pos h2] at hc
    cases hc
    exact ⟨rfl, rfl, rfl, rfl, rfl, .inr ⟨Nat.pos_of_ne_zero h0, by omega, h2, rfl⟩⟩
  · rw [if_neg h0, if_neg h1, if_neg h2] at hc
    cases hc

/-- What an accepted frame says: every check of FRAME_DECODE passed (40_frame_codec.md R132). -/
theorem checkFrame_ok {m : Memory} {e : Endian} {h : Header} (hc : checkFrame m e = .ok h) :
    8 ≤ m.len .ibuf ∧ m.byte .ibuf 0 = 0x45#8 ∧ xor8 (m.read .ibuf 0 7) = m.byte .ibuf 7 ∧
      dec e (m.read .ibuf 5 2) ≤ 2491 ∧ checkPayload m e (dec e (m.read .ibuf 5 2)) = .ok h := by
  unfold checkFrame at hc
  by_cases h1 : m.len .ibuf < 8
  · rw [if_pos h1] at hc
    cases hc
  by_cases h2 : m.byte .ibuf 0 = 0x45#8
  swap
  · rw [if_neg h1, if_pos h2] at hc
    cases hc
  by_cases h3 : xor8 (m.read .ibuf 0 7) = m.byte .ibuf 7
  swap
  · rw [if_neg h1, if_neg (not_not_intro h2), if_pos h3] at hc
    cases hc
  by_cases h4 : 2491 < dec e (m.read .ibuf 5 2)
  · rw [if_neg h1, if_neg (not_not_intro h2), if_neg (not_not_intro h3), if_pos h4] at hc
    cases hc
  · rw [if_neg h1, if_neg (not_not_intro h2), if_neg (not_not_intro h3), if_neg h4] at hc
    exact ⟨by omega, h2, h3, by omega, hc⟩

/-- All the body of FRAME_DECODE can do. -/
theorem State.decodeFrame_cases (s : State) :
    (∃ h, checkFrame s.mem s.cfgEndian = .ok h ∧ s.decodeFrame = (s.startDecode.openSession h, .ok h.dsize)) ∨
    (∃ c, checkFrame s.mem s.cfgEndian = .error c ∧ s.decodeFrame = (s.startDecode.failDecode c, .error c)) := by
  unfold State.decodeFrame
  cases h : checkFrame s.mem s.cfgEndian
  · exact .inr ⟨_, rfl, rfl⟩
  · exact .inl ⟨_, rfl, rfl⟩

/-- All FRAME_DECODE can do. -/
theorem execFrameDecode_cases (s : State) :
    (∃ h, checkFrame s.mem s.cfgEndian = .ok h ∧
      execFrameDecode s = (s.startDecode.openSession h).respond (BitVec.ofNat 64 h.dsize) 0) ∨
    (∃ c, checkFrame s.mem s.cfgEndian = .error c ∧ execFrameDecode s = (s.startDecode.failDecode c).raise c) := by
  unfold execFrameDecode
  obtain ⟨h, hc, hd⟩ | ⟨c, hc, hd⟩ := s.decodeFrame_cases
  · exact .inl ⟨h, hc, by rw [hd]⟩
  · exact .inr ⟨c, hc, by rw [hd]⟩

/-- All FAC_DISPATCH can do. -/
theorem execFacDispatch_cases (s : State) :
    (s.mem.len .ibuf < 8 ∧ execFacDispatch s = s.raise .fmtShort) ∨
    (8 ≤ s.mem.len .ibuf ∧ (s.entry (s.mem.byte .ibuf 1)).valid = false ∧
      execFacDispatch s =
        ({ s with fac := ⟨true, s.mem.byte .ibuf 1, false, 0⟩ } : State).respondNoHandler) ∨
    (8 ≤ s.mem.len .ibuf ∧ (s.entry (s.mem.byte .ibuf 1)).valid = true ∧
      execFacDispatch s =
        dispatchFound { s with fac := ⟨true, s.mem.byte .ibuf 1, true, (s.entry (s.mem.byte .ibuf 1)).handler⟩ }) := by
  unfold execFacDispatch
  by_cases hl : s.mem.len .ibuf < 8
  · exact .inl ⟨hl, by simp [Config.hdrSize, hl]⟩
  · cases hv : (s.entry (s.mem.byte .ibuf 1)).valid
    · exact .inr (.inl ⟨by omega, rfl, by simp [Config.hdrSize, hl, hv, lookedUp]⟩)
    · exact .inr (.inr ⟨by omega, rfl, by simp [Config.hdrSize, hl, hv, lookedUp]⟩)

/-- All the decode of a dispatched frame can do. -/
theorem dispatchFound_cases (s : State) :
    (∃ h, checkFrame s.mem s.cfgEndian = .ok h ∧
      dispatchFound s = (s.startDecode.openSession h).respond (s.fac.handler.setWidth 64) 1) ∨
    (∃ c, checkFrame s.mem s.cfgEndian = .error c ∧
      dispatchFound s = (s.startDecode.failDecode c).raiseDispatched c) := by
  unfold dispatchFound
  obtain ⟨h, hc, hd⟩ | ⟨c, hc, hd⟩ := s.decodeFrame_cases
  · exact .inl ⟨h, hc, by rw [hd]; rfl⟩
  · exact .inr ⟨c, hc, by rw [hd]⟩

/-! ### The port -/

/-- All that can stand at the port. -/
theorem State.presented_cases (s : State) :
    (s.pending = [] ∧ s.presented = .nothing) ∨
    (∃ rest, s.pending = .reset :: rest ∧ s.presented = .resetEvent) ∨
    (∃ c rest e, s.pending = .command c :: rest ∧ decode c.cmd = .error e ∧ s.presented = .illegalWord) ∨
    (∃ c rest i, s.pending = .command c :: rest ∧ decode c.cmd = .ok i ∧ s.presented = .instr i) := by
  unfold State.presented
  cases s.pending with
  | nil => exact .inl ⟨rfl, rfl⟩
  | cons m rest =>
    cases m with
    | reset => exact .inr (.inl ⟨rest, rfl, rfl⟩)
    | command c =>
      cases hd : decode c.cmd with
      | error e => exact .inr (.inr (.inl ⟨c, rest, e, rfl, hd, by simp [hd]⟩))
      | ok i => exact .inr (.inr (.inr ⟨c, rest, i, rfl, hd, by simp [hd]⟩))

/-- The operands of the command at the port. -/
theorem State.command_eq {s : State} {c : Command} {rest : List HostMove} (h : s.pending = .command c :: rest) :
    s.command = c := by simp [State.command, h]

end Sys2Proof.Machine
end

