-- ==== Sys2Proof/Laws/PerInstr.lean ====
section
/-! SUPPORT. Families of statements about every instruction, one lemma per constructor. -/

namespace Sys2Proof

theorem wordOp_commandWord (op a : BitVec 8) (b : BitVec 16) : wordOp (commandWord op a b) = op := by
  apply BitVec.eq_of_getLsbD_eq
  intro i hi
  have h16 : i < 16 := by omega
  have h32 : i < 32 := by omega
  simp [wordOp, commandWord, place, hi, h16, h32]

/-- The opcode of an instruction (30_encoding.md R93). -/
def opcodeOf : Instr → BitVec 8
  | .nop => 0x00#8
  | .setEndian _ => 0x01#8
  | .setType _ => 0x02#8
  | .setSeq _ => 0x03#8
  | .setErrc _ => 0x04#8
  | .rdReg _ => 0x05#8
  | .sreset => 0x0F#8
  | .stgClear => 0x10#8
  | .stgPush _ => 0x11#8
  | .inClear => 0x12#8
  | .inPush _ => 0x13#8
  | .inRead _ => 0x14#8
  | .fbRead _ => 0x15#8
  | .logRead _ _ => 0x16#8
  | .wrByte _ => 0x20#8
  | .wrShort _ => 0x21#8
  | .wrUshort _ => 0x22#8
  | .wrInt _ => 0x23#8
  | .wrUint _ => 0x24#8
  | .wrLong _ => 0x25#8
  | .wrDouble _ => 0x26#8
  | .wrString _ => 0x27#8
  | .wrBytes _ => 0x28#8
  | .wrBytesLp _ => 0x29#8
  | .txBegin => 0x2E#8
  | .frameEncode => 0x2F#8
  | .rdByte _ => 0x30#8
  | .rdShort _ => 0x31#8
  | .rdUshort _ => 0x32#8
  | .rdInt _ => 0x33#8
  | .rdUint _ => 0x34#8
  | .rdLong _ => 0x35#8
  | .rdDouble _ => 0x36#8
  | .rdString _ => 0x37#8
  | .rdBytes _ => 0x38#8
  | .rdBytesLp _ => 0x39#8
  | .frameDecode => 0x3E#8
  | .facRegister _ _ => 0x40#8
  | .facDispatch => 0x41#8

/-- The word of an instruction carries its opcode in bits [7:0] (30_encoding.md R90, R93). -/
def Laws.Opcode.Statement (i : Instr) : Prop := wordOp (encode i) = opcodeOf i

theorem Laws.Opcode.nop : Laws.Opcode.Statement .nop := wordOp_commandWord ..
theorem Laws.Opcode.setEndian (a : BitVec 8) : Laws.Opcode.Statement (.setEndian a) := wordOp_commandWord ..
theorem Laws.Opcode.setType (t : Byte) : Laws.Opcode.Statement (.setType t) := wordOp_commandWord ..
theorem Laws.Opcode.setSeq (n : BitVec 16) : Laws.Opcode.Statement (.setSeq n) := wordOp_commandWord ..
theorem Laws.Opcode.setErrc (e : Byte) : Laws.Opcode.Statement (.setErrc e) := wordOp_commandWord ..
theorem Laws.Opcode.rdReg (r : BitVec 8) : Laws.Opcode.Statement (.rdReg r) := wordOp_commandWord ..
theorem Laws.Opcode.sreset : Laws.Opcode.Statement .sreset := wordOp_commandWord ..
theorem Laws.Opcode.stgClear : Laws.Opcode.Statement .stgClear := wordOp_commandWord ..
theorem Laws.Opcode.stgPush (b : Byte) : Laws.Opcode.Statement (.stgPush b) := wordOp_commandWord ..
theorem Laws.Opcode.inClear : Laws.Opcode.Statement .inClear := wordOp_commandWord ..
theorem Laws.Opcode.inPush (b : Byte) : Laws.Opcode.Statement (.inPush b) := wordOp_commandWord ..
theorem Laws.Opcode.inRead (i : BitVec 16) : Laws.Opcode.Statement (.inRead i) := wordOp_commandWord ..
theorem Laws.Opcode.fbRead (i : BitVec 16) : Laws.Opcode.Statement (.fbRead i) := wordOp_commandWord ..
theorem Laws.Opcode.logRead (a : BitVec 8) (k : BitVec 16) : Laws.Opcode.Statement (.logRead a k) := wordOp_commandWord ..
theorem Laws.Opcode.wrByte (e : BitVec 16) : Laws.Opcode.Statement (.wrByte e) := wordOp_commandWord ..
theorem Laws.Opcode.wrShort (e : BitVec 16) : Laws.Opcode.Statement (.wrShort e) := wordOp_commandWord ..
theorem Laws.Opcode.wrUshort (e : BitVec 16) : Laws.Opcode.Statement (.wrUshort e) := wordOp_commandWord ..
theorem Laws.Opcode.wrInt (e : BitVec 16) : Laws.Opcode.Statement (.wrInt e) := wordOp_commandWord ..
theorem Laws.Opcode.wrUint (e : BitVec 16) : Laws.Opcode.Statement (.wrUint e) := wordOp_commandWord ..
theorem Laws.Opcode.wrLong (e : BitVec 16) : Laws.Opcode.Statement (.wrLong e) := wordOp_commandWord ..
theorem Laws.Opcode.wrDouble (e : BitVec 16) : Laws.Opcode.Statement (.wrDouble e) := wordOp_commandWord ..
theorem Laws.Opcode.wrString (e : BitVec 16) : Laws.Opcode.Statement (.wrString e) := wordOp_commandWord ..
theorem Laws.Opcode.wrBytes (e : BitVec 16) : Laws.Opcode.Statement (.wrBytes e) := wordOp_commandWord ..
theorem Laws.Opcode.wrBytesLp (e : BitVec 16) : Laws.Opcode.Statement (.wrBytesLp e) := wordOp_commandWord ..
theorem Laws.Opcode.txBegin : Laws.Opcode.Statement .txBegin := wordOp_commandWord ..
theorem Laws.Opcode.frameEncode : Laws.Opcode.Statement .frameEncode := wordOp_commandWord ..
theorem Laws.Opcode.rdByte (e : BitVec 16) : Laws.Opcode.Statement (.rdByte e) := wordOp_commandWord ..
theorem Laws.Opcode.rdShort (e : BitVec 16) : Laws.Opcode.Statement (.rdShort e) := wordOp_commandWord ..
theorem Laws.Opcode.rdUshort (e : BitVec 16) : Laws.Opcode.Statement (.rdUshort e) := wordOp_commandWord ..
theorem Laws.Opcode.rdInt (e : BitVec 16) : Laws.Opcode.Statement (.rdInt e) := wordOp_commandWord ..
theorem Laws.Opcode.rdUint (e : BitVec 16) : Laws.Opcode.Statement (.rdUint e) := wordOp_commandWord ..
theorem Laws.Opcode.rdLong (e : BitVec 16) : Laws.Opcode.Statement (.rdLong e) := wordOp_commandWord ..
theorem Laws.Opcode.rdDouble (e : BitVec 16) : Laws.Opcode.Statement (.rdDouble e) := wordOp_commandWord ..
theorem Laws.Opcode.rdString (e : BitVec 16) : Laws.Opcode.Statement (.rdString e) := wordOp_commandWord ..
theorem Laws.Opcode.rdBytes (e : BitVec 16) : Laws.Opcode.Statement (.rdBytes e) := wordOp_commandWord ..
theorem Laws.Opcode.rdBytesLp (e : BitVec 16) : Laws.Opcode.Statement (.rdBytesLp e) := wordOp_commandWord ..
theorem Laws.Opcode.frameDecode : Laws.Opcode.Statement .frameDecode := wordOp_commandWord ..
theorem Laws.Opcode.facRegister (t : Byte) (h : BitVec 16) : Laws.Opcode.Statement (.facRegister t h) := wordOp_commandWord ..
theorem Laws.Opcode.facDispatch : Laws.Opcode.Statement .facDispatch := wordOp_commandWord ..

end Sys2Proof
end

