-- ==== Sys2Proof/Laws/State.lean ====
section
/-! SUPPORT. One lemma per field per named update of the state, each true by rfl, so that no proof
unfolds a record update. -/

namespace Sys2Proof.Machine

@[simp] theorem State.finish_cfgEndian (s : State) (c : Cause) (nh : Bool) (d : BitVec 64) (a : BitVec 16) :
    (s.finish c nh d a).cfgEndian = s.cfgEndian := rfl
@[simp] theorem State.finish_tx (s : State) (c : Cause) (nh : Bool) (d : BitVec 64) (a : BitVec 16) :
    (s.finish c nh d a).tx = s.tx := rfl
@[simp] theorem State.finish_rx (s : State) (c : Cause) (nh : Bool) (d : BitVec 64) (a : BitVec 16) :
    (s.finish c nh d a).rx = s.rx := rfl
@[simp] theorem State.finish_mem (s : State) (c : Cause) (nh : Bool) (d : BitVec 64) (a : BitVec 16) :
    (s.finish c nh d a).mem = s.mem := rfl
@[simp] theorem State.finish_registry (s : State) (c : Cause) (nh : Bool) (d : BitVec 64) (a : BitVec 16) :
    (s.finish c nh d a).registry = s.registry := rfl
@[simp] theorem State.finish_fac (s : State) (c : Cause) (nh : Bool) (d : BitVec 64) (a : BitVec 16) :
    (s.finish c nh d a).fac = s.fac := rfl
@[simp] theorem State.finish_pending (s : State) (c : Cause) (nh : Bool) (d : BitVec 64) (a : BitVec 16) :
    (s.finish c nh d a).pending = s.pending.tail := rfl
@[simp] theorem State.finish_response (s : State) (c : Cause) (nh : Bool) (d : BitVec 64) (a : BitVec 16) :
    (s.finish c nh d a).response = some ⟨statusWord c nh s.tx s.rx, d, a⟩ := rfl

@[simp] theorem State.rxClear_cfgEndian (s : State) :
    s.rxClear.cfgEndian = s.cfgEndian := rfl
@[simp] theorem State.rxClear_tx (s : State) :
    s.rxClear.tx = s.tx := rfl
@[simp] theorem State.rxClear_rx (s : State) :
    s.rxClear.rx = s.rx.cleared := rfl
@[simp] theorem State.rxClear_mem (s : State) :
    s.rxClear.mem = s.mem := rfl
@[simp] theorem State.rxClear_registry (s : State) :
    s.rxClear.registry = s.registry := rfl
@[simp] theorem State.rxClear_fac (s : State) :
    s.rxClear.fac = s.fac := rfl
@[simp] theorem State.rxClear_pending (s : State) :
    s.rxClear.pending = s.pending := rfl
@[simp] theorem State.rxClear_response (s : State) :
    s.rxClear.response = s.response := rfl

@[simp] theorem State.setTxErr_cfgEndian (s : State) (c : Cause) :
    (s.setTxErr c).cfgEndian = s.cfgEndian := rfl
@[simp] theorem State.setTxErr_tx (s : State) (c : Cause) :
    (s.setTxErr c).tx = { s.tx with err := c.code } := rfl
@[simp] theorem State.setTxErr_rx (s : State) (c : Cause) :
    (s.setTxErr c).rx = s.rx := rfl
@[simp] theorem State.setTxErr_mem (s : State) (c : Cause) :
    (s.setTxErr c).mem = s.mem := rfl
@[simp] theorem State.setTxErr_registry (s : State) (c : Cause) :
    (s.setTxErr c).registry = s.registry := rfl
@[simp] theorem State.setTxErr_fac (s : State) (c : Cause) :
    (s.setTxErr c).fac = s.fac := rfl
@[simp] theorem State.setTxErr_pending (s : State) (c : Cause) :
    (s.setTxErr c).pending = s.pending := rfl
@[simp] theorem State.setTxErr_response (s : State) (c : Cause) :
    (s.setTxErr c).response = s.response := rfl

@[simp] theorem State.setRxErr_cfgEndian (s : State) (c : Cause) :
    (s.setRxErr c).cfgEndian = s.cfgEndian := rfl
@[simp] theorem State.setRxErr_tx (s : State) (c : Cause) :
    (s.setRxErr c).tx = s.tx := rfl
@[simp] theorem State.setRxErr_rx (s : State) (c : Cause) :
    (s.setRxErr c).rx = { s.rx with err := c.code, valid := false } := rfl
@[simp] theorem State.setRxErr_mem (s : State) (c : Cause) :
    (s.setRxErr c).mem = s.mem := rfl
@[simp] theorem State.setRxErr_registry (s : State) (c : Cause) :
    (s.setRxErr c).registry = s.registry := rfl
@[simp] theorem State.setRxErr_fac (s : State) (c : Cause) :
    (s.setRxErr c).fac = s.fac := rfl
@[simp] theorem State.setRxErr_pending (s : State) (c : Cause) :
    (s.setRxErr c).pending = s.pending := rfl
@[simp] theorem State.setRxErr_response (s : State) (c : Cause) :
    (s.setRxErr c).response = s.response := rfl

@[simp] theorem State.appendField_cfgEndian (s : State) (t : FieldType) (e : BitVec 16) (bs : List Byte) :
    (s.appendField t e bs).cfgEndian = s.cfgEndian := rfl
@[simp] theorem State.appendField_tx (s : State) (t : FieldType) (e : BitVec 16) (bs : List Byte) :
    (s.appendField t e bs).tx = { s.tx with log := s.tx.log ++ [⟨s.name, e, BitVec.ofNat 16 bs.length, t⟩] } := rfl
@[simp] theorem State.appendField_rx (s : State) (t : FieldType) (e : BitVec 16) (bs : List Byte) :
    (s.appendField t e bs).rx = s.rx := rfl
@[simp] theorem State.appendField_mem (s : State) (t : FieldType) (e : BitVec 16) (bs : List Byte) :
    (s.appendField t e bs).mem = s.mem.push .obuf bs := rfl
@[simp] theorem State.appendField_registry (s : State) (t : FieldType) (e : BitVec 16) (bs : List Byte) :
    (s.appendField t e bs).registry = s.registry := rfl
@[simp] theorem State.appendField_fac (s : State) (t : FieldType) (e : BitVec 16) (bs : List Byte) :
    (s.appendField t e bs).fac = s.fac := rfl
@[simp] theorem State.appendField_pending (s : State) (t : FieldType) (e : BitVec 16) (bs : List Byte) :
    (s.appendField t e bs).pending = s.pending := rfl
@[simp] theorem State.appendField_response (s : State) (t : FieldType) (e : BitVec 16) (bs : List Byte) :
    (s.appendField t e bs).response = s.response := rfl

@[simp] theorem State.consume_cfgEndian (s : State) (t : FieldType) (e : BitVec 16) (n : Nat) :
    (s.consume t e n).cfgEndian = s.cfgEndian := rfl
@[simp] theorem State.consume_tx (s : State) (t : FieldType) (e : BitVec 16) (n : Nat) :
    (s.consume t e n).tx = s.tx := rfl
@[simp] theorem State.consume_rx (s : State) (t : FieldType) (e : BitVec 16) (n : Nat) :
    (s.consume t e n).rx = { s.rx with
      off := BitVec.ofNat 16 (s.rx.off.toNat + n)
      log := s.rx.log ++ [⟨s.name, e, BitVec.ofNat 16 n, t⟩] } := rfl
@[simp] theorem State.consume_mem (s : State) (t : FieldType) (e : BitVec 16) (n : Nat) :
    (s.consume t e n).mem = s.mem := rfl
@[simp] theorem State.consume_registry (s : State) (t : FieldType) (e : BitVec 16) (n : Nat) :
    (s.consume t e n).registry = s.registry := rfl
@[simp] theorem State.consume_fac (s : State) (t : FieldType) (e : BitVec 16) (n : Nat) :
    (s.consume t e n).fac = s.fac := rfl
@[simp] theorem State.consume_pending (s : State) (t : FieldType) (e : BitVec 16) (n : Nat) :
    (s.consume t e n).pending = s.pending := rfl
@[simp] theorem State.consume_response (s : State) (t : FieldType) (e : BitVec 16) (n : Nat) :
    (s.consume t e n).response = s.response := rfl

@[simp] theorem State.encodeFrame_cfgEndian (s : State) :
    s.encodeFrame.cfgEndian = s.cfgEndian := rfl
@[simp] theorem State.encodeFrame_tx (s : State) :
    s.encodeFrame.tx = { s.tx with
      hck := xor8 (headerBytes s.tx.endian s.tx.typeTag s.tx.seq s.tx.errc s.mem.obuf.length)
      dck := xor8 s.mem.obuf
      active := false } := rfl
@[simp] theorem State.encodeFrame_rx (s : State) :
    s.encodeFrame.rx = s.rx := rfl
@[simp] theorem State.encodeFrame_mem (s : State) :
    s.encodeFrame.mem = s.mem.set .fbuf (buildFrame s.tx.endian s.tx.typeTag s.tx.seq s.tx.errc s.mem.obuf) := rfl
@[simp] theorem State.encodeFrame_registry (s : State) :
    s.encodeFrame.registry = s.registry := rfl
@[simp] theorem State.encodeFrame_fac (s : State) :
    s.encodeFrame.fac = s.fac := rfl
@[simp] theorem State.encodeFrame_pending (s : State) :
    s.encodeFrame.pending = s.pending := rfl
@[simp] theorem State.encodeFrame_response (s : State) :
    s.encodeFrame.response = s.response := rfl

@[simp] theorem State.startDecode_cfgEndian (s : State) :
    s.startDecode.cfgEndian = s.cfgEndian := rfl
@[simp] theorem State.startDecode_tx (s : State) :
    s.startDecode.tx = s.tx := rfl
@[simp] theorem State.startDecode_rx (s : State) :
    s.startDecode.rx = { s.rx.cleared with endian := s.cfgEndian } := rfl
@[simp] theorem State.startDecode_mem (s : State) :
    s.startDecode.mem = s.mem := rfl
@[simp] theorem State.startDecode_registry (s : State) :
    s.startDecode.registry = s.registry := rfl
@[simp] theorem State.startDecode_fac (s : State) :
    s.startDecode.fac = s.fac := rfl
@[simp] theorem State.startDecode_pending (s : State) :
    s.startDecode.pending = s.pending := rfl
@[simp] theorem State.startDecode_response (s : State) :
    s.startDecode.response = s.response := rfl

@[simp] theorem State.openSession_cfgEndian (s : State) (h : Header) :
    (s.openSession h).cfgEndian = s.cfgEndian := rfl
@[simp] theorem State.openSession_tx (s : State) (h : Header) :
    (s.openSession h).tx = s.tx := rfl
@[simp] theorem State.openSession_rx (s : State) (h : Header) :
    (s.openSession h).rx = { s.rx with
      typeTag := h.typeTag
      seq := h.seq
      errc := h.errc
      dsize := BitVec.ofNat 16 h.dsize
      hck := h.hck
      dck := h.dck
      off := BitVec.ofNat 16 Config.hdrSize
      endOff := BitVec.ofNat 16 (Config.hdrSize + h.dsize)
      valid := true } := rfl
@[simp] theorem State.openSession_mem (s : State) (h : Header) :
    (s.openSession h).mem = s.mem := rfl
@[simp] theorem State.openSession_registry (s : State) (h : Header) :
    (s.openSession h).registry = s.registry := rfl
@[simp] theorem State.openSession_fac (s : State) (h : Header) :
    (s.openSession h).fac = s.fac := rfl
@[simp] theorem State.openSession_pending (s : State) (h : Header) :
    (s.openSession h).pending = s.pending := rfl
@[simp] theorem State.openSession_response (s : State) (h : Header) :
    (s.openSession h).response = s.response := rfl

@[simp] theorem State.failDecode_cfgEndian (s : State) (c : Cause) :
    (s.failDecode c).cfgEndian = s.cfgEndian := rfl
@[simp] theorem State.failDecode_tx (s : State) (c : Cause) :
    (s.failDecode c).tx = s.tx := rfl
@[simp] theorem State.failDecode_rx (s : State) (c : Cause) :
    (s.failDecode c).rx = { s.rx with err := c.code } := rfl
@[simp] theorem State.failDecode_mem (s : State) (c : Cause) :
    (s.failDecode c).mem = s.mem := rfl
@[simp] theorem State.failDecode_registry (s : State) (c : Cause) :
    (s.failDecode c).registry = s.registry := rfl
@[simp] theorem State.failDecode_fac (s : State) (c : Cause) :
    (s.failDecode c).fac = s.fac := rfl
@[simp] theorem State.failDecode_pending (s : State) (c : Cause) :
    (s.failDecode c).pending = s.pending := rfl
@[simp] theorem State.failDecode_response (s : State) (c : Cause) :
    (s.failDecode c).response = s.response := rfl

@[simp] theorem State.register_cfgEndian (s : State) (t : Byte) (h : BitVec 16) :
    (s.register t h).cfgEndian = s.cfgEndian := rfl
@[simp] theorem State.register_tx (s : State) (t : Byte) (h : BitVec 16) :
    (s.register t h).tx = s.tx := rfl
@[simp] theorem State.register_rx (s : State) (t : Byte) (h : BitVec 16) :
    (s.register t h).rx = s.rx := rfl
@[simp] theorem State.register_mem (s : State) (t : Byte) (h : BitVec 16) :
    (s.register t h).mem = s.mem := rfl
@[simp] theorem State.register_registry (s : State) (t : Byte) (h : BitVec 16) :
    (s.register t h).registry = s.registry.set t.toFin ⟨true, h⟩ := rfl
@[simp] theorem State.register_fac (s : State) (t : Byte) (h : BitVec 16) :
    (s.register t h).fac = s.fac := rfl
@[simp] theorem State.register_pending (s : State) (t : Byte) (h : BitVec 16) :
    (s.register t h).pending = s.pending := rfl
@[simp] theorem State.register_response (s : State) (t : Byte) (h : BitVec 16) :
    (s.register t h).response = s.response := rfl

@[simp] theorem State.resetBlock_cfgEndian (s : State) :
    s.resetBlock.cfgEndian = State.reset.cfgEndian := rfl
@[simp] theorem State.resetBlock_tx (s : State) :
    s.resetBlock.tx = State.reset.tx := rfl
@[simp] theorem State.resetBlock_rx (s : State) :
    s.resetBlock.rx = State.reset.rx := rfl
@[simp] theorem State.resetBlock_mem (s : State) :
    s.resetBlock.mem = State.reset.mem := rfl
@[simp] theorem State.resetBlock_registry (s : State) :
    s.resetBlock.registry = State.reset.registry := rfl
@[simp] theorem State.resetBlock_fac (s : State) :
    s.resetBlock.fac = State.reset.fac := rfl
@[simp] theorem State.resetBlock_pending (s : State) :
    s.resetBlock.pending = s.pending := rfl
@[simp] theorem State.resetBlock_response (s : State) :
    s.resetBlock.response = State.reset.response := rfl

@[simp] theorem State.idle_cfgEndian (s : State) :
    s.idle.cfgEndian = s.cfgEndian := rfl
@[simp] theorem State.idle_tx (s : State) :
    s.idle.tx = s.tx := rfl
@[simp] theorem State.idle_rx (s : State) :
    s.idle.rx = s.rx := rfl
@[simp] theorem State.idle_mem (s : State) :
    s.idle.mem = s.mem := rfl
@[simp] theorem State.idle_registry (s : State) :
    s.idle.registry = s.registry := rfl
@[simp] theorem State.idle_fac (s : State) :
    s.idle.fac = s.fac := rfl
@[simp] theorem State.idle_pending (s : State) :
    s.idle.pending = s.pending := rfl
@[simp] theorem State.idle_response (s : State) :
    s.idle.response = none := rfl

@[simp] theorem State.takeReset_cfgEndian (s : State) :
    s.takeReset.cfgEndian = State.reset.cfgEndian := rfl
@[simp] theorem State.takeReset_tx (s : State) :
    s.takeReset.tx = State.reset.tx := rfl
@[simp] theorem State.takeReset_rx (s : State) :
    s.takeReset.rx = State.reset.rx := rfl
@[simp] theorem State.takeReset_mem (s : State) :
    s.takeReset.mem = State.reset.mem := rfl
@[simp] theorem State.takeReset_registry (s : State) :
    s.takeReset.registry = State.reset.registry := rfl
@[simp] theorem State.takeReset_fac (s : State) :
    s.takeReset.fac = State.reset.fac := rfl
@[simp] theorem State.takeReset_pending (s : State) :
    s.takeReset.pending = s.pending.tail := rfl
@[simp] theorem State.takeReset_response (s : State) :
    s.takeReset.response = State.reset.response := rfl

@[simp] theorem State.present_cfgEndian (s : State) (w : BitVec 32) :
    (s.present w).cfgEndian = s.cfgEndian := rfl
@[simp] theorem State.present_tx (s : State) (w : BitVec 32) :
    (s.present w).tx = s.tx := rfl
@[simp] theorem State.present_rx (s : State) (w : BitVec 32) :
    (s.present w).rx = s.rx := rfl
@[simp] theorem State.present_mem (s : State) (w : BitVec 32) :
    (s.present w).mem = s.mem := rfl
@[simp] theorem State.present_registry (s : State) (w : BitVec 32) :
    (s.present w).registry = s.registry := rfl
@[simp] theorem State.present_fac (s : State) (w : BitVec 32) :
    (s.present w).fac = s.fac := rfl
@[simp] theorem State.present_pending (s : State) (w : BitVec 32) :
    (s.present w).pending = .command ⟨w, 0, 0⟩ :: s.pending := rfl
@[simp] theorem State.present_response (s : State) (w : BitVec 32) :
    (s.present w).response = s.response := rfl

@[simp] theorem Rx.cleared_endian (rx : Rx) : rx.cleared.endian = rx.endian := rfl
@[simp] theorem Rx.cleared_valid (rx : Rx) : rx.cleared.valid = false := rfl
@[simp] theorem Rx.cleared_err (rx : Rx) : rx.cleared.err = 0 := rfl
@[simp] theorem Rx.cleared_typeTag (rx : Rx) : rx.cleared.typeTag = 0 := rfl
@[simp] theorem Rx.cleared_seq (rx : Rx) : rx.cleared.seq = 0 := rfl
@[simp] theorem Rx.cleared_errc (rx : Rx) : rx.cleared.errc = 0 := rfl
@[simp] theorem Rx.cleared_dsize (rx : Rx) : rx.cleared.dsize = 0 := rfl
@[simp] theorem Rx.cleared_hck (rx : Rx) : rx.cleared.hck = 0 := rfl
@[simp] theorem Rx.cleared_dck (rx : Rx) : rx.cleared.dck = 0 := rfl
@[simp] theorem Rx.cleared_off (rx : Rx) : rx.cleared.off = 0 := rfl
@[simp] theorem Rx.cleared_endOff (rx : Rx) : rx.cleared.endOff = 0 := rfl
@[simp] theorem Rx.cleared_log (rx : Rx) : rx.cleared.log = [] := rfl

@[simp] theorem Tx.begun_typeTag (tx : Tx) (e : Endian) : (tx.begun e).typeTag = tx.typeTag := rfl
@[simp] theorem Tx.begun_seq (tx : Tx) (e : Endian) : (tx.begun e).seq = tx.seq := rfl
@[simp] theorem Tx.begun_errc (tx : Tx) (e : Endian) : (tx.begun e).errc = tx.errc := rfl
@[simp] theorem Tx.begun_active (tx : Tx) (e : Endian) : (tx.begun e).active = true := rfl
@[simp] theorem Tx.begun_endian (tx : Tx) (e : Endian) : (tx.begun e).endian = e := rfl
@[simp] theorem Tx.begun_err (tx : Tx) (e : Endian) : (tx.begun e).err = 0 := rfl
@[simp] theorem Tx.begun_hck (tx : Tx) (e : Endian) : (tx.begun e).hck = tx.hck := rfl
@[simp] theorem Tx.begun_dck (tx : Tx) (e : Endian) : (tx.begun e).dck = tx.dck := rfl
@[simp] theorem Tx.begun_log (tx : Tx) (e : Endian) : (tx.begun e).log = [] := rfl

end Sys2Proof.Machine
end

