-- ==== Sys2Proof/Tests/Slice0.lean ====
section
/-! SUPPORT. Tests on small states, their expected values from 95_test_vectors.md (the vector is named) or
worked by hand from the rule named, and, for each statement with hypotheses, a witness that meets them. -/

namespace Sys2Proof.Tests

open Sys2Proof Sys2Proof.Machine

/-! ### Helpers -/

/-- The state after one step that takes the command word `w` with this DIN and NAME. -/
def go (w : BitVec 32) (din : BitVec 64) (name : BitVec 32) (s : State) : Option State :=
  match step { s with pending := [.command ⟨w, din, name⟩] } with
  | .next t => some t
  | .fault _ => none
  | .refused _ => none

/-- STATUS, DOUT and DAUX of the response. -/
def answer (o : Option State) : Option (BitVec 32 × BitVec 64 × BitVec 16) :=
  o.bind fun t => t.response.map fun r => (r.status, r.dout, r.daux)

/-- A part of the state after the step. -/
def look {α : Type} (f : State → α) (o : Option State) : Option α := o.map f

/-- The corrected frame of 95_test_vectors.md L1.1. -/
def frame : List Byte := [0x45, 0x01, 0x05, 0x00, 0x00, 0x03, 0x00, 0x42, 0xAA, 0xBB, 0xCC, 0xDD]

/-- Reset, with these bytes in IBUF. -/
def holding (bs : List Byte) : State := { State.reset with mem := { State.reset.mem with ibuf := bs } }

/-- Reset, with these bytes staged and a coder session open in byte order `e`. -/
def coding (e : Endian) (stage : List Byte) : State :=
  { State.reset with
    mem := { State.reset.mem with stage := stage }
    tx := { State.reset.tx with active := true, endian := e } }

/-- A decoder session open on a payload in byte order `e`, the cursor at 8. The other bytes of IBUF are
not those of a real frame: field reads do not look at them. -/
def reading (e : Endian) (payload : List Byte) : State :=
  { State.reset with
    mem := { State.reset.mem with ibuf := [0x45, 0, 0, 0, 0, 0, 0, 0] ++ payload ++ [0x77] }
    rx := { State.reset.rx with
      valid := true, endian := e, off := 8, endOff := BitVec.ofNat 16 (8 + payload.length)
      dsize := BitVec.ofNat 16 payload.length } }

/-- One log record. -/
def record : Record := ⟨1#32, 0#16, 2#16, .ushort⟩

/-- A log filled to its capacity. -/
def fullLog : List Record := List.replicate Config.logCap record

/-- A state with a command at the port. -/
def presenting (w : BitVec 32) (din : BitVec 64) (name : BitVec 32) (s : State) : State :=
  { s with pending := [.command ⟨w, din, name⟩] }

/-! ### WellFormed: the ill-formed terms are refused (K3, B9) -/

theorem test_wellFormed_setEndian : Instr.wellFormed (.setEndian 2#8) = false ∧
    Instr.wellFormed (.setEndian 1#8) = true := by decide
theorem test_wellFormed_logRead : Instr.wellFormed (.logRead 2#8 1#16) = false ∧
    Instr.wellFormed (.logRead 1#8 1#16) = true := by decide

/-! ### Decode: one word of each command, written from 30_encoding.md R90 and R93 -/

theorem test_decode_control :
    [0x00000000#32, 0x00000101#32, 0x00000102#32, 0x00050003#32, 0x00007F04#32, 0x00002005#32, 0x0000000F#32].map
      (decodeTableWord 32 ·.toNat) =
    [some .nop, some (.setEndian 1), some (.setType 1), some (.setSeq 5), some (.setErrc 0x7F), some (.rdReg 0x20),
      some .sreset] := by decide
theorem test_decode_buffers :
    [0x00000010#32, 0x00004811#32, 0x00000012#32, 0x00004513#32, 0x00080014#32, 0x00070015#32, 0x00010116#32].map
      (decodeTableWord 32 ·.toNat) =
    [some .stgClear, some (.stgPush 0x48), some .inClear, some (.inPush 0x45), some (.inRead 8), some (.fbRead 7),
      some (.logRead 1 1)] := by decide
theorem test_decode_coder :
    [0x00010020#32, 0x00020021#32, 0x00030022#32, 0x00040023#32, 0x00050024#32, 0x00060025#32, 0x00070026#32,
      0x00080027#32, 0x00090028#32, 0x000A0029#32, 0x0000002E#32, 0x0000002F#32].map (decodeTableWord 32 ·.toNat) =
    [some (.wrByte 1), some (.wrShort 2), some (.wrUshort 3), some (.wrInt 4), some (.wrUint 5), some (.wrLong 6),
      some (.wrDouble 7), some (.wrString 8), some (.wrBytes 9), some (.wrBytesLp 10), some .txBegin,
      some .frameEncode] := by decide
theorem test_decode_decoder :
    [0x00010030#32, 0x00020031#32, 0x00030032#32, 0x00040033#32, 0x00050034#32, 0x00060035#32, 0x00070036#32,
      0x00080037#32, 0x00090038#32, 0x000A0039#32, 0x0000003E#32].map (decodeTableWord 32 ·.toNat) =
    [some (.rdByte 1), some (.rdShort 2), some (.rdUshort 3), some (.rdInt 4), some (.rdUint 5), some (.rdLong 6),
      some (.rdDouble 7), some (.rdString 8), some (.rdBytes 9), some (.rdBytesLp 10), some .frameDecode] := by decide
theorem test_decode_factory :
    [0x00071040#32, 0x00000041#32].map (decodeTableWord 32 ·.toNat) =
    [some (.facRegister 0x10 7), some .facDispatch] := by decide

/-- The last unassigned OP of each gap of R95, and must-be-zero bits of A and of B (R92). -/
theorem test_decode_illegal :
    [0x0000000E#32, 0x0000001F#32, 0x0000002D#32, 0x0000003D#32, 0x0000003F#32, 0x000000FF#32].map decode =
      [.error (.unassigned 0x0E), .error (.unassigned 0x1F), .error (.unassigned 0x2D), .error (.unassigned 0x3D),
        .error (.unassigned 0x3F), .error (.unassigned 0xFF)] ∧
    decode 0x00000100#32 = .error (.mustBeZero "NOP") ∧ decode 0x00010012#32 = .error (.mustBeZero "IN_CLEAR") ∧
    decode 0x00000801#32 = .error (.mustBeZero "SET_ENDIAN") ∧
    decode 0x00000120#32 = .error (.mustBeZero "WR_BYTE") := by decide +kernel

/-! ### Control family -/

/-- R240. -/
theorem test_nop : answer (go 0x00000000#32 7 7 State.reset) = some (0x00000000#32, 0, 0) := by decide
/-- R241. -/
theorem test_setEndian : look State.cfgEndian (go 0x00000101#32 0 0 State.reset) = some .big := by decide
/-- A must-be-zero bit (R92): E_ILLEGAL. -/
theorem test_setEndian_illegal : answer (go 0x00000201#32 0 0 State.reset) = some (0x0000000C#32, 0, 0) := by decide
/-- R242, R243, R244. -/
theorem test_setType : look (·.tx.typeTag) (go 0x00000102#32 0 0 State.reset) = some 0x01#8 := by decide
theorem test_setSeq : look (·.tx.seq) (go 0x00050003#32 0 0 State.reset) = some 5#16 := by decide
theorem test_setErrc : look (·.tx.errc) (go 0x00007F04#32 0 0 State.reset) = some 0x7F#8 := by decide
/-- W22: TX_CTRL of a poisoned session. -/
theorem test_rdReg_txCtrl :
    answer (go 0x00000405#32 0 0 { State.reset with tx := { State.reset.tx with active := true, err := 0x0A } }) =
      some (0x00000600#32, 0xA01, 0) := by decide
/-- FAC_LAST by R36: HANDLER 7 in [31:16], DONE [9], FOUND [8], TAG 10 in [7:0]. -/
theorem test_rdReg_facLast : answer (go 0x00002005#32 0 0 { State.reset with fac := ⟨true, 0x10, true, 7⟩ }) =
    some (0x00000000#32, 0x00070310, 0) := by decide
/-- R246. -/
theorem test_sreset :
    look (fun t => (t.rx, t.mem)) (go 0x0000000F#32 0 0 (reading .big [1, 2, 3])) =
      some (State.reset.rx, State.reset.mem) ∧
    answer (go 0x0000000F#32 0 0 (coding .big [1])) = some (0x00000000#32, 0, 0) := by decide

/-! ### Buffer family -/

/-- R260. -/
theorem test_stgClear : look (·.mem.stage) (go 0x00000010#32 0 0 (coding .little [1, 2, 3])) = some [] := by decide
/-- R261. -/
theorem test_stgPush : look (·.mem.stage) (go 0x0000CC11#32 0 0 (coding .little [0xAA, 0xBB])) =
    some [0xAA, 0xBB, 0xCC] := by decide
/-- R262: the session ends and RX.ENDIAN is kept (R41). -/
theorem test_inClear : look (fun t => (t.mem.ibuf, t.rx)) (go 0x00000012#32 0 0 (reading .big [1])) =
    some ([], { State.reset.rx with endian := .big }) := by decide
/-- R263. -/
theorem test_inPush : look (fun t => (t.mem.ibuf, t.rx.valid)) (go 0x00009913#32 0 0 { holding [0x45] with
    rx := { State.reset.rx with valid := true } }) = some ([0x45, 0x99], false) := by decide
/-- R264: IN_READ 8 gives AA, IN_READ 12 gives E_BOUNDS. -/
theorem test_inRead : answer (go 0x00080014#32 0 0 (holding frame)) = some (0x00000000#32, 0xAA, 0) ∧
    answer (go 0x000C0014#32 0 0 (holding frame)) = some (0x00000008#32, 0, 0) := by decide
/-- F22: FB_READ 7 gives 46, FB_READ 8 gives E_BOUNDS. -/
theorem test_fbRead :
    let s : State := { State.reset with mem := { State.reset.mem with fbuf := [0x45, 2, 0, 1, 0, 0, 0, 0x46] } }
    answer (go 0x00070015#32 0 0 s) = some (0x00000000#32, 0x46, 0) ∧
      answer (go 0x00080015#32 0 0 s) = some (0x00000008#32, 0, 0) := by decide
/-- R266: LOG_READ TX, 1 gives 0x0000000100020000 and 2; LOG_READ TX, 2 gives E_BOUNDS. -/
theorem test_logRead :
    let s : State := { State.reset with tx := { State.reset.tx with log := [record] } }
    answer (go 0x00010016#32 0 0 s) = some (0x00000000#32, 0x0000000100020000, 2) ∧
      answer (go 0x00020016#32 0 0 s) = some (0x00000008#32, 0, 0) := by decide
/-- The selector (R266): A = 1 reads RX.LOG, empty here. -/
theorem test_logRead_rx :
    answer (go 0x00010116#32 0 0 { State.reset with tx := { State.reset.tx with log := [record] } }) =
      some (0x00000008#32, 0, 0) := by decide

/-! ### Field coder family -/

/-- W23: TX_BEGIN clears the poison. -/
theorem test_txBegin :
    let s : State := { State.reset with
      tx := { State.reset.tx with active := true, err := 0x0A, log := [record] }
      cfgEndian := .big
      mem := { State.reset.mem with obuf := [1] } }
    answer (go 0x0000002E#32 0 0 s) = some (0x00000200#32, 0, 0) ∧
      look (fun t => (t.tx.endian, t.tx.log, t.mem.obuf)) (go 0x0000002E#32 0 0 s) = some (.big, [], []) := by decide
/-- W2, W3. -/
theorem test_wrByte :
    look (·.mem.obuf) (go 0x00000020#32 0xFF 1 (coding .big [])) = some [0xFF] ∧
      answer (go 0x00000020#32 0x100 1 (coding .big [])) = some (0x0000060A#32, 0, 0) := by decide +kernel
/-- W5 and its log record; W8. -/
theorem test_wrShort :
    look (fun t => (t.mem.obuf, t.tx.log)) (go 0x00020021#32 0xFFFFFFFFFFFFFFFE 1 (coding .little [])) =
      some ([0xFE, 0xFF], [⟨1, 2, 2, .short⟩]) := by decide +kernel
theorem test_wrShort_range : answer (go 0x00000021#32 0x8000 1 (coding .little [])) =
    some (0x0000060A#32, 0, 0) := by decide
/-- W9, W11. -/
theorem test_wrUshort :
    look (·.mem.obuf) (go 0x00000022#32 0x1234 1 (coding .big [])) = some [0x12, 0x34] ∧
      answer (go 0x00000022#32 0x10000 1 (coding .big [])) = some (0x0000060A#32, 0, 0) := by decide +kernel
/-- W13, W14. -/
theorem test_wrInt :
    look (·.mem.obuf) (go 0x00000023#32 0xFFFFFFFF80000000 1 (coding .little [])) = some [0, 0, 0, 0x80] ∧
      answer (go 0x00000023#32 0x80000000 1 (coding .little [])) = some (0x0000060A#32, 0, 0) := by decide +kernel
/-- W15, W16. -/
theorem test_wrUint :
    look (·.mem.obuf) (go 0x00000024#32 0xDEADBEEF 1 (coding .little [])) = some [0xEF, 0xBE, 0xAD, 0xDE] ∧
      answer (go 0x00000024#32 0x100000000 1 (coding .little [])) = some (0x0000060A#32, 0, 0) := by decide +kernel
/-- W17. -/
theorem test_wrLong : look (·.mem.obuf) (go 0x00000025#32 0x0102030405060708 1 (coding .big [])) =
    some [1, 2, 3, 4, 5, 6, 7, 8] := by decide +kernel
/-- W19. -/
theorem test_wrDouble : look (·.mem.obuf) (go 0x00000026#32 0x3FF0000000000000 1 (coding .little [])) =
    some [0, 0, 0, 0, 0, 0, 0xF0, 0x3F] := by decide +kernel
/-- W40. -/
theorem test_wrString :
    look (fun t => (t.mem.obuf, t.tx.log, t.mem.stage)) (go 0x00000027#32 0 8 (coding .little [0x48, 0x69])) =
      some ([2, 0, 0x48, 0x69], [⟨8, 0, 4, .string⟩], [0x48, 0x69]) := by decide +kernel
/-- W43: a record with no bytes. -/
theorem test_wrBytes : look (fun t => (t.mem.obuf, t.tx.log)) (go 0x00000028#32 0 8 (coding .little [])) =
    some ([], [⟨8, 0, 0, .byteArray⟩]) := by decide +kernel
/-- W44. -/
theorem test_wrBytesLp : look (fun t => (t.mem.obuf, t.tx.log)) (go 0x00000029#32 0 8 (coding .big [1, 2, 3])) =
    some ([0, 3, 1, 2, 3], [⟨8, 0, 5, .byteArray⟩]) := by decide +kernel
/-- W24: no session, nothing changes. -/
theorem test_wrByte_state : answer (go 0x00000020#32 1 1 State.reset) = some (0x0000000B#32, 0, 0) := by decide

/-! ### Frame codec family -/

/-- E4. -/
theorem test_frameEncode :
    let s : State := { State.reset with
      tx := { State.reset.tx with active := true, typeTag := 1, seq := 5 }
      mem := { State.reset.mem with obuf := [0xAA, 0xBB, 0xCC] } }
    answer (go 0x0000002F#32 0 0 s) = some (0x00000000#32, 0xC, 0) ∧
      look (fun t => (t.mem.fbuf, t.tx.hck, t.tx.dck)) (go 0x0000002F#32 0 0 s) = some (frame, 0x42, 0xDD) := by decide
/-- F20: an empty payload. -/
theorem test_frameEncode_empty :
    look (fun t => (t.mem.fbuf, t.tx.dck)) (go 0x0000002F#32 0 0 { State.reset with
      tx := { State.reset.tx with active := true, typeTag := 2, seq := 0x0100 } }) =
    some ([0x45, 2, 0, 1, 0, 0, 0, 0x46], 0x00) := by decide
/-- E1. -/
theorem test_frameDecode : answer (go 0x0000003E#32 0 0 (holding frame)) = some (0x00000800#32, 3, 0) ∧
    look (·.rx) (go 0x0000003E#32 0 0 (holding frame)) =
      some ⟨true, .little, 0, 0x01, 0x0005, 0x00, 3, 0x42, 0xDD, 8, 11, []⟩ := by decide
/-- F10, F5, F7, F14, F11, E3: the six failures. -/
theorem test_frameDecode_fails :
    [frame.take 7, frame.set 0 0x44, frame.set 7 0x43, [0x45, 0, 0, 0, 0, 0xBC, 0x09, 0xF0], frame.take 11,
      frame.set 11 0x75].map (fun bs => answer (go 0x0000003E#32 0 0 (holding bs))) =
    [some (0x00001001#32, 0, 0), some (0x00001002#32, 0, 0), some (0x00001003#32, 0, 0), some (0x00001004#32, 0, 0),
      some (0x00001005#32, 0, 0), some (0x00001006#32, 0, 0)] := by decide

/-! ### Field decoder family -/

/-- R194, and its bound: a payload of no bytes (F3). -/
theorem test_rdByte : answer (go 0x00000030#32 0 1 (reading .big [0xAA])) = some (0x00000800#32, 0xAA, 0) ∧
    answer (go 0x00000030#32 0 1 (reading .big [])) = some (0x00001008#32, 0, 0) := by decide +kernel
/-- R195. -/
theorem test_rdShort : answer (go 0x00000031#32 0 1 (reading .little [0x00, 0x80])) =
    some (0x00000800#32, 0xFFFFFFFFFFFF8000, 0) := by decide +kernel
/-- R196: the cursor and the log record. -/
theorem test_rdUshort :
    answer (go 0x00000032#32 0 3 (reading .big [0xAA, 0xBB])) = some (0x00000800#32, 0xAABB, 0) ∧
      look (fun t => (t.rx.off, t.rx.log)) (go 0x00070032#32 0 3 (reading .big [0xAA, 0xBB])) =
        some (10, [⟨3, 7, 2, .ushort⟩]) := by decide +kernel
/-- R197: with 3 bytes left the checksum byte is not read; the session closes, the cursor stays. -/
theorem test_rdInt :
    answer (go 0x00000033#32 0 4 (reading .little [0xFF, 0xFF, 0xFF, 0xFF])) =
      some (0x00000800#32, 0xFFFFFFFFFFFFFFFF, 0) ∧
    look (fun t => (t.rx.valid, t.rx.err, t.rx.off)) (go 0x00000033#32 0 4 (reading .little [1, 2, 3])) =
      some (false, 0x08, 8) := by decide +kernel
/-- R198. -/
theorem test_rdUint : answer (go 0x00000034#32 0 5 (reading .little [0xEF, 0xBE, 0xAD, 0xDE])) =
    some (0x00000800#32, 0xDEADBEEF, 0) := by decide +kernel
/-- R199. -/
theorem test_rdLong : answer (go 0x00000035#32 0 6 (reading .little [8, 7, 6, 5, 4, 3, 2, 1])) =
    some (0x00000800#32, 0x0102030405060708, 0) := by decide +kernel
/-- R200. -/
theorem test_rdDouble : answer (go 0x00000036#32 0 7 (reading .little [0, 0, 0, 0, 0, 0, 0xF0, 0x3F])) =
    some (0x00000800#32, 0x3FF0000000000000, 0) := by decide +kernel
/-- R201; a length that passes the payload's end consumes nothing. -/
theorem test_rdString :
    answer (go 0x00000037#32 0 8 (reading .little [2, 0, 0x48, 0x69])) = some (0x00000800#32, 2, 10) ∧
      look (fun t => (t.rx.off, t.rx.err)) (go 0x00000037#32 0 8 (reading .little [3, 0, 0x48, 0x69])) =
        some (8, 0x08) := by decide +kernel
/-- E2. -/
theorem test_rdBytes : answer (go 0x00000038#32 3 1 (reading .little [0xAA, 0xBB, 0xCC])) =
    some (0x00000800#32, 3, 8) := by decide +kernel
/-- R202: DIN of 2^16 is E_RANGE. -/
theorem test_rdBytes_range : answer (go 0x00000038#32 0x10000 1 (reading .little [1])) =
    some (0x0000100A#32, 0, 0) := by decide
/-- R203. -/
theorem test_rdBytesLp :
    answer (go 0x00000039#32 0 10 (reading .big [0, 3, 1, 2, 3])) = some (0x00000800#32, 3, 10) ∧
      look (fun t => (t.rx.off, t.rx.log)) (go 0x00000039#32 0 10 (reading .big [0, 3, 1, 2, 3])) =
        some (13, [⟨10, 0, 5, .byteArray⟩]) := by decide +kernel

/-! ### Factory family -/

/-- R220. -/
theorem test_facRegister : look (fun t => (t.entry 0x10, t.entry 0x11)) (go 0x00071040#32 0 0 State.reset) =
    some (⟨true, 7⟩, ⟨false, 0⟩) := by decide
/-- R221: the example frame's tag 0x01 registered with handler 7. -/
theorem test_facDispatch :
    answer (go 0x00000041#32 0 0 ((holding frame).register 0x01 7)) = some (0x00000800#32, 7, 1) ∧
      look (·.fac) (go 0x00000041#32 0 0 ((holding frame).register 0x01 7)) = some ⟨true, 0x01, true, 7⟩ := by decide
/-- R221: unregistered gives NOHANDLER however malformed the frame; a failed decode still reports the
handler. -/
theorem test_facDispatch_others :
    answer (go 0x00000041#32 0 0 (holding (frame.set 0 0x44))) = some (0x00000100#32, 0, 0) ∧
      answer (go 0x00000041#32 0 0 ((holding (frame.set 0 0x44)).register 0x01 7)) =
        some (0x00001002#32, 7, 1) := by decide

/-! ### The step and the interface -/

theorem test_withFetchWord : (State.reset.withFetchWord 32 0x00050003).presented = .instr (.setSeq 5) := by decide
theorem test_unassigned_op : answer (go 0x00000006#32 0 0 State.reset) = some (0x0000000C#32, 0, 0) := by decide

/-! ### Witnesses: for each statement, a state and operands that meet its hypotheses -/

theorem witness_DecodeEncodeRoundTrip : Instr.wellFormed (.logRead 1#8 0xFFFF#16) = true := by decide
theorem witness_EncodeDecodeRoundTrip : decode 0xFFFFFF40#32 = .ok (.facRegister 0xFF 0xFFFF) := by decide

/-- The word that is no command, the numbers next to the ends of the register map, and OP 0x40. -/
theorem witness_IllegalRaisesWithoutEffect :
    (presenting 0x00000006#32 1 1 State.reset).pending = .command ⟨0x00000006#32, 1, 1⟩ :: [] ∧
    (∀ p ∈ opcodeMatches, 0x00000006#32 &&& p.1 ≠ p.2) ∧ (∀ p ∈ opcodeMatches, 0x00010012#32 &&& p.1 ≠ p.2) ∧
    (∀ r ∈ [0x0C#8, 0x0F#8, 0x1A#8, 0x1F#8, 0x21#8, 0xFF#8],
      ¬ (r.toNat ≤ 0x0B ∨ 0x10 ≤ r.toNat ∧ r.toNat ≤ 0x19 ∨ r.toNat = 0x20)) ∧
    wordOp 0xFFFFFF40#32 = 0x40#8 := ⟨rfl, by simp [opcodeMatches], by simp [opcodeMatches], by decide, by decide⟩

theorem witness_LegalWordsAreTheOpcodeMap : (0x0000FEFF#32, 0x00000016#32) ∈ opcodeMatches ∧
    0x00020116#32 &&& 0x0000FEFF#32 = 0x00000016#32 := by decide

/-- For each kind of pair that HasEncoding is stated of: a word it selects, and one with the same OP that
it does not select; either can stand at the port (`presenting`). FAC_REGISTER's has no second kind: its operands take every bit above OP. -/
theorem witness_HasEncoding :
    0x0000000F#32 &&& 0xFFFFFFFF#32 = 0x0000000F#32 ∧ 0x8000000F#32 &&& 0xFFFFFFFF#32 ≠ 0x0000000F#32 ∧
    0x00000101#32 &&& 0xFFFFFEFF#32 = 0x00000001#32 ∧ 0x00000201#32 &&& 0xFFFFFEFF#32 ≠ 0x00000001#32 ∧
    0x0000FF02#32 &&& 0xFFFF00FF#32 = 0x00000002#32 ∧ 0x00010002#32 &&& 0xFFFF00FF#32 ≠ 0x00000002#32 ∧
    0xFFFF0003#32 &&& 0x0000FFFF#32 = 0x00000003#32 ∧ 0x00000103#32 &&& 0x0000FFFF#32 ≠ 0x00000003#32 ∧
    0xFFFF0116#32 &&& 0x0000FEFF#32 = 0x00000016#32 ∧ 0x00000216#32 &&& 0x0000FEFF#32 ≠ 0x00000016#32 ∧
    0xFFFFFF40#32 &&& 0x000000FF#32 = 0x00000040#32 := by decide

theorem witness_StepRunsDecodedCommand :
    (presenting 0x00050003#32 1 2 State.reset).pending = .command ⟨0x00050003#32, 1, 2⟩ :: [] ∧
    decode 0x00050003#32 = .ok (.setSeq 5) := by decide
theorem witness_IdleStepHoldsState : State.reset.pending = [] := rfl
theorem witness_EveryCommandIsAnswered : (presenting 0x00000006#32 1 1 State.reset).pending =
    .command ⟨0x00000006#32, 1, 1⟩ :: [] := rfl

/-- A step with a response, for a NOHANDLER and for an ordinary outcome. -/
theorem witness_StatusReportsTheState :
    (go 0x00000041#32 0 0 (holding frame)).bind (fun t => t.response.map Response.noHandler) = some true ∧
    (go 0x0000003E#32 0 0 (holding frame)).bind (fun t => t.response.map Response.noHandler) = some false := by decide

theorem witness_ResetSetsEveryElement : ({ State.reset with pending := [.reset] } : State).pending = .reset :: [] := rfl

theorem reset_inv : State.reset.Inv :=
  { memory := by decide, frame := .inl rfl, txLogCap := Nat.zero_le _, rxLogCap := Nat.zero_le _, txLog := rfl,
    rxLog := fun h => absurd rfl h, session := fun h => Bool.noConfusion h, poisoned := fun h => absurd rfl h }

/-- A state that meets the invariants, and a step from it. -/
theorem witness_StepKeepsInvariants : State.reset.Inv ∧ step State.reset = .next State.reset.idle := ⟨reset_inv, rfl⟩

theorem witness_SetEndianWritesSelector : 2 ≤ (2#8).toNat ∧ 2 ≤ (0xFF#8).toNat := by decide
theorem witness_LogReadSelectorIsChecked : 2 ≤ (2#8).toNat := by decide
theorem witness_RdRegAnswersTheRegisterMap : ¬ ((0x0C#8).toNat ≤ 0x0B ∨ 0x10 ≤ (0x0C#8).toNat ∧
    (0x0C#8).toNat ≤ 0x19 ∨ (0x0C#8).toNat = 0x20) := by decide

/-- Full, and one byte short of it. -/
theorem witness_StgPushAppendsOrOverflows :
    (coding .little (List.replicate 2491 0)).mem.stage.length = 2491 ∧
    (coding .little (List.replicate 2490 0)).mem.stage.length ≠ 2491 :=
  ⟨List.length_replicate, fun h => absurd (List.length_replicate.symm.trans h) (by decide)⟩
theorem witness_InPushAppendsOrOverflows :
    (holding (List.replicate 2500 0)).mem.ibuf.length = 2500 ∧
    (holding (List.replicate 2499 0)).mem.ibuf.length ≠ 2500 :=
  ⟨List.length_replicate, fun h => absurd (List.length_replicate.symm.trans h) (by decide)⟩
theorem witness_IndexedReadsAnswerTheByte :
    (holding frame).mem.ibuf[(11#16).toNat]? = some 0xDD#8 ∧ (holding frame).mem.ibuf.length ≤ (12#16).toNat ∧
    ({ State.reset with mem := { State.reset.mem with fbuf := frame } } : State).mem.fbuf[(0#16).toNat]? = some 0x45#8 ∧
    State.reset.mem.fbuf.length ≤ (0#16).toNat := by decide
/-- The first and the last record of either log, index 0, and the first index past the log. -/
theorem witness_LogReadAnswersTheRecord :
    let s : State := { State.reset with
      tx := { State.reset.tx with log := [record] }
      rx := { State.reset.rx with log := [record, record] } }
    (1 ≤ (1#16).toNat ∧ s.tx.log[(1#16).toNat - 1]? = some record) ∧
    (1 ≤ (2#16).toNat ∧ s.rx.log[(2#16).toNat - 1]? = some record) ∧
    (0#16).toNat = 0 ∧ s.tx.log.length < (2#16).toNat ∧ s.rx.log.length < (3#16).toNat := by decide

theorem witness_ReadCommandsHaveNoSideEffect : exec .nop State.reset =
    .next (State.reset.finish .ok false 0 0) := rfl

theorem ne_logCap (n : Nat) (h : n < 2491) : n ≠ Config.logCap := by unfold Config.logCap; omega

/-- Each clause: no session, a poisoned one; a value out of range; the payload one byte over; a full
log; and the payload exactly full. -/
theorem witness_ScalarWritesAppendOrFail :
    State.reset.tx.active = false ∧
    ((coding .little []).withTxErr .range).tx.err ≠ 0x00#8 ∧
    (coding .little []).tx.active = true ∧ (coding .little []).tx.err = 0x00#8 ∧
    ¬ fits .byte (presenting 0x20#32 0x100 0 (coding .little [])).din ∧
    fits .byte (presenting 0x20#32 0xFF 0 (coding .little [])).din ∧
    2491 < (List.replicate 2491 (0 : Byte)).length + 1 ∧
    fullLog.length = Config.logCap ∧
    (List.replicate 2490 (0 : Byte)).length + 1 ≤ 2491 ∧ (coding .little []).tx.log.length ≠ Config.logCap := by
  refine ⟨rfl, by decide, rfl, rfl, by simp only [fits]; decide, by simp only [fits]; decide,
    by rw [List.length_replicate]; decide, List.length_replicate,
    by rw [List.length_replicate], ne_logCap 0 (by decide)⟩
/-- 2489 staged bytes just fit with their length, and 2490 do not. -/
theorem witness_StagedWritesAppendOrFail :
    State.reset.tx.active = false ∧ (coding .big []).tx.active = true ∧ (coding .big []).tx.err = 0x00#8 ∧
    2491 < (coding .big []).mem.obuf.length + ((coding .big (List.replicate 2490 0)).stagedField true).length ∧
    (coding .big []).mem.obuf.length + ((coding .big (List.replicate 2489 0)).stagedField true).length ≤ 2491 ∧
    fullLog.length = Config.logCap ∧ (coding .big []).tx.log.length ≠ Config.logCap := by
  refine ⟨rfl, rfl, rfl, ?_, ?_, List.length_replicate, ne_logCap 0 (by decide)⟩ <;>
    rw [State.stagedField, List.length_append, show (coding .big _).mem.stage.length = _ from List.length_replicate] <;>
    decide
theorem witness_ClosedSessionsRefuse :
    isWrite (.wrByte 0) = true ∧ State.reset.tx.active = false ∧ isRead (.rdByte 0) = true ∧
    State.reset.rx.valid = false := by decide

/-- Each clause: no session; one byte too few; a full log; the last byte of the payload. -/
theorem witness_ScalarReadsAnswerOrFail :
    State.reset.rx.valid = false ∧ (reading .little [1]).rx.valid = true ∧
    (reading .little [1]).rx.endOff.toNat < (reading .little [1]).rx.off.toNat + 2 ∧
    (reading .little [1]).rx.off.toNat + 1 ≤ (reading .little [1]).rx.endOff.toNat ∧
    fullLog.length = Config.logCap ∧ (reading .little [1]).rx.log.length ≠ Config.logCap :=
  ⟨rfl, rfl, by decide, by decide, List.length_replicate, ne_logCap 0 (by decide)⟩
/-- Each clause: no prefix; data one byte too long; data that just fits. -/
theorem witness_PrefixedReadsAnswerOrFail :
    (reading .big [1]).rx.endOff.toNat < (reading .big [1]).rx.off.toNat + 2 ∧
    (let s := reading .big [0, 2, 7]
     s.rx.valid = true ∧ s.rx.endOff.toNat < s.rx.off.toNat + 2 + s.prefixLength) ∧
    (let s := reading .big [0, 1, 7]
     s.rx.valid = true ∧ s.rx.off.toNat + 2 + s.prefixLength ≤ s.rx.endOff.toNat ∧
       s.rx.log.length ≠ Config.logCap) ∧ fullLog.length = Config.logCap :=
  ⟨by decide, by decide, ⟨rfl, by decide, ne_logCap 0 (by decide)⟩, List.length_replicate⟩
/-- Each clause: DIN at 2^16; one byte past the payload; the whole payload. -/
theorem witness_RawReadAnswersOrFails :
    (let s := presenting 0x38#32 0x10000 0 (reading .big [1]); s.rx.valid = true ∧ 65536 ≤ s.din.toNat) ∧
    (let s := presenting 0x38#32 2 0 (reading .big [1])
     s.rx.valid = true ∧ s.din.toNat < 65536 ∧ s.rx.endOff.toNat < s.rx.off.toNat + s.din.toNat) ∧
    (let s := presenting 0x38#32 1 0 (reading .big [1])
     s.rx.valid = true ∧ s.din.toNat < 65536 ∧ s.rx.off.toNat + s.din.toNat ≤ s.rx.endOff.toNat ∧
       s.rx.log.length ≠ Config.logCap) ∧ State.reset.rx.valid = false ∧ fullLog.length = Config.logCap :=
  ⟨by decide, by decide, ⟨rfl, by decide, by decide, ne_logCap 0 (by decide)⟩, rfl, List.length_replicate⟩
/-- A read on a state whose memory differs below the cursor and past the payload. -/
theorem witness_ReadsSeeOnlyThePayload :
    let s := reading .little [5]
    let m : Memory := { s.mem with ibuf := [0, 0, 0, 0, 0, 0, 0, 0, 5], stage := [1] }
    isRead (.rdByte 0) = true ∧ (∃ t, exec (.rdByte 0) s = .next t) ∧
    ∀ a, s.rx.off.toNat ≤ a → a < s.rx.endOff.toNat → m.byte? .ibuf a = s.mem.byte? .ibuf a := by
  refine ⟨rfl, ?_, ?_⟩
  · simp only [exec, execRdByte, readScalar, readField]
    rw [if_pos (by decide), if_neg (by decide), if_neg (ne_logCap (reading .little [5]).rx.log.length (by decide))]
    exact ⟨_, rfl⟩
  · intro a h1 h2
    have : a = 8 := by simp [reading] at h1 h2; omega
    subst this
    decide

theorem witness_FrameEncodeBuildsTheFrame : State.reset.tx.active = false ∧
    (coding .big []).tx.active = true ∧ (coding .big []).tx.err = 0x00#8 := by decide
/-- An accepted frame and one with each fault. -/
theorem witness_FrameDecodeValidates :
    [frame, frame.take 7, frame.set 0 0x44, frame.set 7 0x43, [0x45, 0, 0, 0, 0, 0xBC, 0x09, 0xF0], frame.take 11,
      frame.set 11 0x75].map (fun bs => (holding bs).frameFault) =
    [none, some .fmtShort, some .fmtInit, some .fmtHck, some .fmtSize, some .fmtTrunc, some .fmtDck] := by decide
theorem witness_TrailingBytesIgnored : (holding frame).frameFault = none := by decide
theorem witness_Xor8Laws : [1#8, 2#8].Perm [2#8, 1#8] ∧ 1 < [1#8, 2#8].length := ⟨.swap .., by decide⟩
theorem witness_ByteOrderLaws : 8 ≤ 8 ∧ 65535 < 256 ^ 2 := by decide
theorem witness_FrameRoundTrip :
    let s := coding .big []
    s.tx.active = true ∧ s.tx.err = 0x00#8 ∧ s.mem.obuf.length ≤ 2491 ∧
    exec .frameEncode s = .next (s.encodeFrame.finish .ok false 8 0) ∧
    (let u : State := { holding (s.encodeFrame.mem.fbuf ++ [7]) with cfgEndian := .big }
     u.mem.ibuf = (s.encodeFrame.finish .ok false 8 0).mem.fbuf ++ [7] ∧ u.cfgEndian = s.tx.endian) :=
  ⟨rfl, rfl, by decide, rfl, rfl, rfl⟩
/-- The accepted frame has N = 3: bytes 0, 1 and 7, 8 and 11 are the ends of the three ranges, and byte
12 of the frame with one byte more lies after it; with N = 0 byte 8 does. -/
theorem witness_SingleBitFlipsAreDetected :
    (holding (frame ++ [0])).frameFault = none ∧ (holding (frame ++ [0])).declaredSize = 3 ∧
    12 < (holding (frame ++ [0])).mem.ibuf.length ∧ 8 + 3 < 12 ∧
    (holding [0x45, 2, 0, 1, 0, 0, 0, 0x46, 9]).frameFault = none ∧
    (holding [0x45, 2, 0, 1, 0, 0, 0, 0x46, 9]).declaredSize = 0 ∧
    0x75#8 ≠ (holding frame).mem.byte .ibuf (8 + 3) := by decide
/-- F14. -/
theorem witness_FrameSizeIsBounded :
    let s := holding [0x45, 0, 0, 0, 0, 0xBC, 0x09, 0xF0]
    8 ≤ s.mem.ibuf.length ∧ s.mem.byte .ibuf 0 = 0x45#8 ∧ s.inputXor 0 7 = s.mem.byte .ibuf 7 ∧
    2491 < s.declaredSize := by decide
theorem witness_FrameSizeIsBounded_encode : (coding .big []).Inv ∧
    exec .frameEncode (coding .big []) = .next ((coding .big []).encodeFrame.finish .ok false 8 0) :=
  ⟨{ memory := by decide, frame := .inl rfl, txLogCap := Nat.zero_le _, rxLogCap := Nat.zero_le _, txLog := rfl,
     rxLog := fun h => absurd rfl h, session := fun h => Bool.noConfusion h, poisoned := fun h => absurd rfl h }, rfl⟩
theorem witness_DecodingAgainChangesNothing :
    exec .frameDecode State.reset = .next ((State.reset.startDecode.failDecode .fmtShort).finish .fmtShort false 0 0) ∧
    exec .facDispatch State.reset = .next (State.reset.finish .fmtShort false 0 0) := ⟨rfl, rfl⟩

theorem witness_FacRegisterSetsTheEntry : (0x11#8 : Byte) ≠ 0x10#8 := by decide
/-- Each clause: 7 bytes; an unregistered tag; a registered one with a good and with a bad frame. -/
theorem witness_FacDispatchLooksUpThenDecodes :
    (holding (frame.take 7)).mem.ibuf.length < 8 ∧ 8 ≤ (holding (frame.take 8)).mem.ibuf.length ∧
    ((holding frame).entry 0x01).valid = false ∧
    (let s := (holding frame).register 0x01 7
     (s.entry (s.mem.byte .ibuf 1)).valid = true ∧ s.frameFault = none) ∧
    (let s := (holding (frame.set 0 0x44)).register 0x01 7
     (s.entry (s.mem.byte .ibuf 1)).valid = true ∧ s.frameFault = some .fmtInit) := by decide
theorem witness_LastRegistrationWins :
    let s := holding frame
    let s1 := (s.register 0x01 7).finish .ok false 0 0
    let s2 := (s1.register 0x01 9).finish .ok false 0 0
    (0x02#8 : Byte) ≠ 0x01#8 ∧ exec (.facRegister 0x01 7) s = .next s1 ∧ exec (.facRegister 0x01 9) s1 = .next s2 ∧
    exec (.facRegister 0x02 8) s2 = .next ((s2.register 0x02 8).finish .ok false 0 0) ∧
    8 ≤ s.mem.ibuf.length ∧ s.mem.byte .ibuf 1 = 0x01#8 :=
  ⟨by decide, rfl, rfl, rfl, by decide, by decide⟩

/-- One command for all the whole-machine rules about `exec`: NOP meets every premise about writers. -/
theorem witness_StateChangesOnlyByItsWriters :
    exec .nop State.reset = .next (State.reset.finish .ok false 0 0) ∧ Instr.nop ≠ .sreset ∧
    (∀ a, Instr.nop ≠ .setEndian a) ∧ (∀ a, Instr.nop ≠ .setType a) ∧ (∀ a, Instr.nop ≠ .setSeq a) ∧
    (∀ a, Instr.nop ≠ .setErrc a) ∧ Instr.nop ≠ .txBegin ∧ Instr.nop ≠ .frameEncode ∧ isWrite .nop = false ∧
    clearsRx .nop = false ∧ isRead .nop = false ∧ Instr.nop ≠ .frameDecode ∧ Instr.nop ≠ .facDispatch ∧
    ∀ a h, Instr.nop ≠ .facRegister a h := by
  refine ⟨rfl, ?_⟩
  simp [isWrite, clearsRx, isRead]
theorem witness_ByteOrderIsLatched :
    (go 0x0000002E#32 0 0 State.reset).isSome ∧
    (go 0x0000003E#32 0 0 (holding frame)).isSome ∧
    (let s := (holding frame).register 0x01 7
     (go 0x00000041#32 0 0 s).isSome ∧ 8 ≤ s.mem.ibuf.length ∧ (s.entry (s.mem.byte .ibuf 1)).valid = true) ∧
    exec .nop State.reset = .next (State.reset.finish .ok false 0 0) ∧ (∀ a, Instr.nop ≠ .setEndian a) :=
  ⟨by decide, by decide, by decide, rfl, fun _ h => Instr.noConfusion h⟩
theorem witness_BytesChangeOnlyByTheirWriters : writesSpace (.wrByte 0) .ibuf = false ∧
    exec (.wrByte 0) State.reset = .next (State.reset.finish .state false 0 0) := ⟨rfl, rfl⟩
theorem witness_AppendsStoreAtTheLength :
    storedSpan (.stgPush 7) (coding .little [1]) = some (.stage, 1, 1) ∧
    (go 0x00000711#32 0 0 (coding .little [1])).bind (fun t => t.response.map Response.cause) = some 0x00#8 := by decide
theorem witness_LogsOnlyAppendOrEmpty : exec .txBegin State.reset =
    .next (({ State.reset with tx := State.reset.tx.begun .little } : State).finish .ok false 0 0) := rfl
theorem witness_InputChangeEndsSession :
    look (·.mem.ibuf) (go 0x00000013#32 0 0 (holding frame)) ≠ some (holding frame).mem.ibuf := by decide
/-- The reset state, and a poisoned session: its first cause stays after a refused write. -/
theorem witness_SessionsOpenOnlyByTheirCommands :
    State.reset.Inv ∧ ((coding .little []).withTxErr .range).Inv ∧
    (go 0x0000002F#32 0 0 ((coding .little []).withTxErr .range)).map (·.tx.err) = some 0x0A#8 ∧
    (go 0x00000012#32 0 0 State.reset).map (·.rx.valid) = some false ∧
    (go 0x00000031#32 0 0 State.reset).map (·.rx.valid) = some false :=
  ⟨reset_inv,
    { memory := by decide, frame := .inl rfl, txLogCap := Nat.zero_le _, rxLogCap := Nat.zero_le _, txLog := rfl,
      rxLog := fun h => absurd rfl h, session := fun h => Bool.noConfusion h, poisoned := fun _ => rfl }, by decide, by decide, by decide⟩
/-- A failure of each kind of the table: nothing written, TX.ERR, RX.ERR, a rejected frame. -/
theorem witness_FailuresLeaveTheListedState :
    [go 0x00000020#32 0 0 State.reset, go 0x00000020#32 0x100 0 (coding .little []),
      go 0x00000038#32 0x10000 0 (reading .little []), go 0x0000003E#32 0 0 State.reset,
      go 0x00000041#32 0 0 State.reset].map (fun o => o.bind fun t => t.response.map Response.cause) =
    [some Cause.state.code, some Cause.range.code, some Cause.range.code, some Cause.fmtShort.code,
      some Cause.fmtShort.code] := by decide
theorem witness_CommandsRaiseOnlyTheirCauses : ((go 0x00000020#32 0 0 State.reset).bind State.response).isSome := by
  decide
theorem witness_ChannelsAreIndependent :
    isWrite (.wrByte 0) = true ∧ exec (.wrByte 0) State.reset = .next (State.reset.finish .state false 0 0) ∧
    isRead (.rdByte 0) = true ∧ exec (.rdByte 0) State.reset = .next (State.reset.finish .state false 0 0) :=
  ⟨rfl, rfl, rfl, rfl⟩

/-- A message of one field and the two runs' starting states. -/
theorem witness_ScalarMessageRoundTrip :
    let f : ScalarField := ⟨.short, 1, 9, 0xFFFFFFFFFFFFFFFE⟩
    let s : State := { coding .big [] with pending := [f.writeMove, plainMove .frameEncode] }
    isScalar f.type ∧ fits f.type f.value ∧ ([f].map fun f => wireBytes f.type).sum ≤ 2491 ∧ s.tx.active = true ∧
    s.tx.err = 0x00#8 ∧ s.mem.obuf = [] ∧ s.tx.log = [] ∧
    s.pending = [f].map ScalarField.writeMove ++ [plainMove .frameEncode] ∧
    ∀ t : State, ∃ u : State, u.mem.ibuf = t.mem.fbuf ∧ u.cfgEndian = s.tx.endian ∧
      u.pending = plainMove .frameDecode :: [f].map ScalarField.readMove :=
  ⟨⟨by decide, by decide⟩, by simp only [fits]; decide, by decide, rfl, rfl, rfl, rfl, rfl, fun t =>
    ⟨{ holding t.mem.fbuf with cfgEndian := .big, pending := [plainMove .frameDecode,
        ScalarField.readMove ⟨.short, 1, 9, 0xFFFFFFFFFFFFFFFE⟩] }, rfl, rfl, rfl⟩⟩

end Sys2Proof.Tests
end

section
/-! PROOFS. The step on a decoded command, and the range of the open parameter LOG_CAP
(00_scope.md R5, R8). -/

namespace Sys2Proof.Machine

/-! ### A command at the port -/

section
variable {s : State} {c : Command} {rest : List HostMove}

theorem State.din_of_pending_command (hp : s.pending = .command c :: rest) : s.din = c.din :=
  congrArg Command.din (State.command_eq hp)

theorem State.name_of_pending_command (hp : s.pending = .command c :: rest) : s.name = c.name :=
  congrArg Command.name (State.command_eq hp)

theorem State.presented_of_decode_ok {i : Instr} (hp : s.pending = .command c :: rest)
    (hd : decode c.cmd = .ok i) : s.presented = .instr i := by
  simp only [State.presented, hp, hd]

end

theorem step_of_presented_instr {s : State} {i : Instr} (h : s.presented = .instr i) : step s = exec i s := by
  simp only [step, h]

/-- Settles O6: the decoded word is what the port presents, and the step hands it to `exec` as it is. -/
theorem stepRunsDecodedCommand : Obligations.StepRunsDecodedCommand := by
  intro s c rest i hp hd
  have hstep : step s = exec i s := step_of_presented_instr (State.presented_of_decode_ok hp hd)
  exact ⟨hstep, State.din_of_pending_command hp, State.name_of_pending_command hp⟩

end Sys2Proof.Machine

namespace Sys2Proof.Config

theorem le_logCap : 2491 ≤ logCap := Nat.le_add_left 2491 logSlack.val

/-- The slack above the lower bound is at most 63044 = 65535 - 2491. -/
theorem logCap_le : logCap ≤ 65535 := by
  have hslack : logSlack.val ≤ 63044 := Nat.le_of_lt_succ logSlack.isLt
  exact Nat.add_le_add_right hslack 2491

/-- Settles O12: both bounds hold whatever value the free slack has. -/
theorem logCapacityInRange : Obligations.LogCapacityInRange := ⟨le_logCap, logCap_le⟩

end Sys2Proof.Config
end

section
/-! PROOFS. The STATUS word bit by bit (10_state.md R37), and one inversion of every meaning: what a
command can do to the block before it answers. Later proofs about a step cite these and do not unfold
`exec`. -/

namespace Sys2Proof.Machine

/-! ### STATUS -/

theorem getLsbD_place (n lo : Nat) {w : Nat} (v : BitVec w) (k : Nat) :
    (place n lo v).getLsbD k = (decide (k < n) && decide (lo ≤ k) && v.getLsbD (k - lo)) := by
  by_cases hk : k < n <;> by_cases hlo : lo ≤ k <;> simp [place, hk, hlo]

theorem getLsbD_bit (b : Bool) (k : Nat) : (bit b).getLsbD k = (decide (k = 0) && b) := by
  simp [bit, BitVec.getLsbD_ofBool]

/-- Every bit of STATUS at once: the five flags at their places, the cause below them. -/
theorem getLsbD_statusWord (c : Cause) (nh : Bool) (tx : Tx) (rx : Rx) {k : Nat} (hk : k < 32) :
    (statusWord c nh tx rx).getLsbD k =
      (decide (k = 12) && rx.poisoned || decide (k = 11) && rx.valid || decide (k = 10) && tx.poisoned ||
        decide (k = 9) && tx.active || decide (k = 8) && nh || c.code.getLsbD k) := by
  have place_bit (lo : Nat) (b : Bool) : (place 32 lo (bit b)).getLsbD k = (decide (k = lo) && b) := by
    rw [getLsbD_place, getLsbD_bit, Bool.eq_iff_iff]
    simp only [Bool.and_eq_true, decide_eq_true_eq, ← and_assoc]
    exact and_congr_left fun _ => by omega
  have place_code : (place 32 0 c.code).getLsbD k = c.code.getLsbD k := by
    simp only [getLsbD_place, hk, Nat.zero_le, decide_true, Bool.true_and, Nat.sub_zero]
  simp only [statusWord, BitVec.getLsbD_or, place_bit, place_code]

theorem statusWord_cause (c : Cause) (nh : Bool) (tx : Tx) (rx : Rx) :
    (statusWord c nh tx rx).extractLsb' 0 8 = c.code := by
  apply BitVec.eq_of_getLsbD_eq
  intro k hk
  have flags : k ≠ 12 ∧ k ≠ 11 ∧ k ≠ 10 ∧ k ≠ 9 ∧ k ≠ 8 := by omega
  simp [getLsbD_statusWord c nh tx rx (show k < 32 by omega), hk, flags]

/-- Bits 31 to 13 of STATUS are zero. -/
theorem statusWord_lt (c : Cause) (nh : Bool) (tx : Tx) (rx : Rx) : (statusWord c nh tx rx).toNat < 2 ^ 13 := by
  apply Nat.lt_pow_two_of_testBit
  intro k hk
  rw [BitVec.testBit_toNat]
  by_cases h : k < 32
  · have flags : k ≠ 12 ∧ k ≠ 11 ∧ k ≠ 10 ∧ k ≠ 9 ∧ k ≠ 8 := by omega
    simp [getLsbD_statusWord c nh tx rx h, flags, BitVec.getLsbD_of_ge c.code k (by omega)]
  · exact BitVec.getLsbD_of_ge _ _ (by omega)

@[simp] theorem Response.cause_statusWord (c : Cause) (nh : Bool) (tx : Tx) (rx : Rx) (d : BitVec 64)
    (a : BitVec 16) : (⟨statusWord c nh tx rx, d, a⟩ : Response).cause = c.code := statusWord_cause ..

@[simp] theorem Response.noHandler_statusWord (c : Cause) (nh : Bool) (tx : Tx) (rx : Rx) (d : BitVec 64)
    (a : BitVec 16) : (⟨statusWord c nh tx rx, d, a⟩ : Response).noHandler = nh := by
  have bit8 : c.code.getLsbD 8 = false := BitVec.getLsbD_of_ge _ _ (Nat.le_refl 8)
  rw [Response.noHandler, getLsbD_statusWord _ _ _ _ (by decide), bit8]
  simp

/-! ### The effect of a command -/

/-- The lookup of FAC_DISPATCH that finds a handler (43_factory.md R221). -/
def State.foundHandler (s : State) : State :=
  { s with fac := ⟨true, s.mem.byte .ibuf 1, true, (s.entry (s.mem.byte .ibuf 1)).handler⟩ }

/-- `Effect s i c nh u`: on `s` the command `i` can write the block to `u` and then answer with cause `c`
and NOHANDLER `nh`. Only the checks the later proofs need are kept; `exec_answers` ties it to `exec`. -/
inductive Effect (s : State) : Instr → Cause → Bool → State → Prop
  | unchanged {i : Instr} {c : Cause} (short : i = .facDispatch → s.mem.len .ibuf < 8) : Effect s i c false s
  | setEndian (a : BitVec 8) : Effect s (.setEndian a) .ok false { s with cfgEndian := endianOfBit (a.getLsbD 0) }
  | setType (tag : Byte) : Effect s (.setType tag) .ok false { s with tx := { s.tx with typeTag := tag } }
  | setSeq (seq : BitVec 16) : Effect s (.setSeq seq) .ok false { s with tx := { s.tx with seq := seq } }
  | setErrc (errc : Byte) : Effect s (.setErrc errc) .ok false { s with tx := { s.tx with errc := errc } }
  | reset : Effect s .sreset .ok false s.resetBlock
  | stgClear : Effect s .stgClear .ok false { s with mem := s.mem.set .stage [] }
  | stgPush (b : Byte) (room : s.mem.len .stage ≠ Config.capacity .stage) :
      Effect s (.stgPush b) .ok false { s with mem := s.mem.push .stage [b] }
  | inClear : Effect s .inClear .ok false ({ s with mem := s.mem.set .ibuf [] } : State).rxClear
  | inPush (b : Byte) (room : s.mem.len .ibuf ≠ Config.capacity .ibuf) :
      Effect s (.inPush b) .ok false ({ s with mem := s.mem.push .ibuf [b] } : State).rxClear
  | txBegin : Effect s .txBegin .ok false { s with tx := s.tx.begun s.cfgEndian, mem := s.mem.set .obuf [] }
  | poison {i : Instr} {c : Cause} (write : isWrite i = true) (opened : s.txClosed = false) (fails : c ≠ .ok) :
      Effect s i c false (s.setTxErr c)
  | append {i : Instr} {t : FieldType} {e : BitVec 16} {bs : List Byte} (write : isWrite i = true)
      (opened : s.txClosed = false) (fits : s.mem.len .obuf + bs.length ≤ 2491)
      (room : s.tx.log.length ≠ Config.logCap) : Effect s i .ok false (s.appendField t e bs)
  | encode (opened : s.txClosed = false) : Effect s .frameEncode .ok false s.encodeFrame
  | rpoison {i : Instr} {c : Cause} (read : isRead i = true) (opened : s.rx.valid = true) (fails : c ≠ .ok) :
      Effect s i c false (s.setRxErr c)
  | consume {i : Instr} {t : FieldType} {e : BitVec 16} {n : Nat} (read : isRead i = true)
      (opened : s.rx.valid = true) (within : s.rx.off.toNat + n ≤ s.rx.endOff.toNat)
      (room : s.rx.log.length ≠ Config.logCap) : Effect s i .ok false (s.consume t e n)
  | accept {h : Header} (passed : checkFrame s.mem s.cfgEndian = .ok h) :
      Effect s .frameDecode .ok false (s.startDecode.openSession h)
  | reject {c : Cause} (failed : checkFrame s.mem s.cfgEndian = .error c) :
      Effect s .frameDecode c false (s.startDecode.failDecode c)
  | register (tag : Byte) (h : BitVec 16) : Effect s (.facRegister tag h) .ok false (s.register tag h)
  | noHandler (header : 8 ≤ s.mem.len .ibuf) (unknown : (s.entry (s.mem.byte .ibuf 1)).valid = false) :
      Effect s .facDispatch .ok true { s with fac := ⟨true, s.mem.byte .ibuf 1, false, 0⟩ }
  | dispatchAccept {h : Header} (known : (s.entry (s.mem.byte .ibuf 1)).valid = true)
      (passed : checkFrame s.mem s.cfgEndian = .ok h) :
      Effect s .facDispatch .ok false (s.foundHandler.startDecode.openSession h)
  | dispatchReject {c : Cause} (known : (s.entry (s.mem.byte .ibuf 1)).valid = true)
      (failed : checkFrame s.mem s.cfgEndian = .error c) :
      Effect s .facDispatch c false (s.foundHandler.startDecode.failDecode c)

/-- The result `r` is an effect of `i` on `s`, answered. -/
def Answers (s : State) (i : Instr) (r : Result) : Prop :=
  ∃ u c nh d a, Effect s i c nh u ∧ r = .next (u.finish c nh d a)

/-- An effect that is answered at once. -/
theorem Effect.answers {s u : State} {i : Instr} {c : Cause} {nh : Bool} {d : BitVec 64} {a : BitVec 16}
    (h : Effect s i c nh u) : Answers s i (.next (u.finish c nh d a)) := ⟨u, c, nh, d, a, h, rfl⟩

section
variable {s : State} {i : Instr}

/-- A command that only answers. -/
theorem finish_answers {c : Cause} {d : BitVec 64} {a : BitVec 16} (hi : i ≠ .facDispatch) :
    Answers s i (.next (s.finish c false d a)) := (Effect.unchanged fun h => absurd h hi).answers

theorem ne_facDispatch_of_isWrite (h : isWrite i = true) : i ≠ .facDispatch := by
  rintro rfl
  cases h

theorem ne_facDispatch_of_isRead (h : isRead i = true) : i ≠ .facDispatch := by
  rintro rfl
  cases h

theorem writeField_answers {t : FieldType} {e : BitVec 16} {bs : List Byte} (hw : isWrite i = true)
    (ho : s.txClosed = false) : Answers s i (writeField t e bs s) := by
  obtain ⟨-, hr⟩ | ⟨hfit, hroom, hr⟩ := writeField_cases t e bs s <;> rw [hr]
  · exact (Effect.poison hw ho (by decide)).answers
  · exact (Effect.append hw ho hfit hroom).answers

theorem writeScalar_answers {t : FieldType} {e : BitVec 16} (hw : isWrite i = true) :
    Answers s i (writeScalar t e s) := by
  obtain ⟨-, hr⟩ | ⟨ho, -, hr⟩ | ⟨ho, -, hr⟩ := writeScalar_cases t e s <;> rw [hr]
  · exact finish_answers (ne_facDispatch_of_isWrite hw)
  · exact (Effect.poison hw ho (by decide)).answers
  · exact writeField_answers hw ho

theorem writeBytes_answers {t : FieldType} {e : BitVec 16} {bs : List Byte} (hw : isWrite i = true) :
    Answers s i (writeBytes t e bs s) := by
  obtain ⟨-, hr⟩ | ⟨ho, hr⟩ := writeBytes_cases t e bs s <;> rw [hr]
  · exact finish_answers (ne_facDispatch_of_isWrite hw)
  · exact writeField_answers hw ho

theorem readField_answers {t : FieldType} {e : BitVec 16} {n : Nat} {d : BitVec 64} {a : BitVec 16}
    (hi : isRead i = true) (hv : s.rx.valid = true) : Answers s i (readField t e n d a s) := by
  obtain ⟨-, hr⟩ | ⟨-, -, hr⟩ | ⟨hin, hroom, hr⟩ := readField_cases t e n d a s <;> rw [hr]
  · exact (Effect.rpoison hi hv (by decide)).answers
  · exact (Effect.rpoison hi hv (by decide)).answers
  · exact (Effect.consume hi hv hin hroom).answers

theorem readScalar_answers {t : FieldType} {e : BitVec 16} (hi : isRead i = true) :
    Answers s i (readScalar t e s) := by
  obtain ⟨-, hr⟩ | ⟨hv, hr⟩ := readScalar_cases t e s <;> rw [hr]
  · exact finish_answers (ne_facDispatch_of_isRead hi)
  · exact readField_answers hi hv

theorem readPrefixed_answers {t : FieldType} {e : BitVec 16} (hi : isRead i = true) :
    Answers s i (readPrefixed t e s) := by
  obtain ⟨-, hr⟩ | ⟨hv, -, hr⟩ | ⟨hv, -, hr⟩ := readPrefixed_cases t e s <;> rw [hr]
  · exact finish_answers (ne_facDispatch_of_isRead hi)
  · exact (Effect.rpoison hi hv (by decide)).answers
  · exact readField_answers hi hv

theorem execRdBytes_answers {e : BitVec 16} : Answers s (.rdBytes e) (execRdBytes e s) := by
  obtain ⟨-, hr⟩ | ⟨hv, -, hr⟩ | ⟨hv, -, hr⟩ := execRdBytes_cases e s <;> rw [hr]
  · exact finish_answers (ne_facDispatch_of_isRead rfl)
  · exact (Effect.rpoison rfl hv (by decide)).answers
  · exact readField_answers rfl hv

theorem readIndexed_answers {sp : Space} {k : BitVec 16} (hi : i ≠ .facDispatch) :
    Answers s i (readIndexed sp k s) := by
  obtain ⟨b, -, hr⟩ | ⟨-, hr⟩ := readIndexed_cases sp k s <;> rw [hr] <;> exact finish_answers hi

theorem execLogRead_answers {a : BitVec 8} {k : BitVec 16} : Answers s (.logRead a k) (execLogRead a k s) := by
  obtain ⟨-, hr⟩ | ⟨-, -, hr⟩ | ⟨-, r, -, hr⟩ := execLogRead_cases a k s <;> rw [hr] <;>
    exact finish_answers nofun

theorem execRdReg_answers {r : BitVec 8} : Answers s (.rdReg r) (execRdReg r s) := by
  obtain ⟨v, -, hr⟩ | ⟨-, hr⟩ := execRdReg_cases r s <;> rw [hr] <;> exact finish_answers nofun

theorem execSetEndian_answers {a : BitVec 8} : Answers s (.setEndian a) (execSetEndian a s) := by
  unfold execSetEndian
  split
  · exact (Effect.setEndian a).answers
  · exact finish_answers nofun

theorem execStgPush_answers {b : Byte} : Answers s (.stgPush b) (execStgPush b s) := by
  unfold execStgPush
  split
  · exact finish_answers nofun
  · exact (Effect.stgPush b ‹_›).answers

theorem execInPush_answers {b : Byte} : Answers s (.inPush b) (execInPush b s) := by
  unfold execInPush
  split
  · exact finish_answers nofun
  · exact (Effect.inPush b ‹_›).answers

theorem execFrameEncode_answers : Answers s .frameEncode (execFrameEncode s) := by
  unfold execFrameEncode
  split
  · exact finish_answers nofun
  · exact (Effect.encode (Bool.eq_false_of_not_eq_true ‹_›)).answers

theorem execFrameDecode_answers : Answers s .frameDecode (execFrameDecode s) := by
  obtain ⟨h, hc, hr⟩ | ⟨c, hc, hr⟩ := execFrameDecode_cases s <;> rw [hr]
  · exact (Effect.accept hc).answers
  · exact (Effect.reject hc).answers

theorem dispatchFound_answers (hk : (s.entry (s.mem.byte .ibuf 1)).valid = true) :
    Answers s .facDispatch (dispatchFound s.foundHandler) := by
  obtain ⟨h, hc, hr⟩ | ⟨c, hc, hr⟩ := dispatchFound_cases s.foundHandler <;> rw [hr]
  · exact (Effect.dispatchAccept hk hc).answers
  · exact (Effect.dispatchReject hk hc).answers

theorem execFacDispatch_answers : Answers s .facDispatch (execFacDispatch s) := by
  obtain ⟨hl, hr⟩ | ⟨hl, hv, hr⟩ | ⟨-, hv, hr⟩ := execFacDispatch_cases s <;> rw [hr]
  · exact (Effect.unchanged fun _ => hl).answers
  · exact (Effect.noHandler hl hv).answers
  · exact dispatchFound_answers hv

end

/-- What any command can do to the block. -/
theorem exec_answers (i : Instr) (s : State) : Answers s i (exec i s) := by
  cases i with
  | nop => exact finish_answers nofun
  | setEndian a => exact execSetEndian_answers
  | setType tag => exact (Effect.setType tag).answers
  | setSeq seq => exact (Effect.setSeq seq).answers
  | setErrc errc => exact (Effect.setErrc errc).answers
  | rdReg r => exact execRdReg_answers
  | sreset => exact Effect.reset.answers
  | stgClear => exact Effect.stgClear.answers
  | stgPush b => exact execStgPush_answers
  | inClear => exact Effect.inClear.answers
  | inPush b => exact execInPush_answers
  | inRead k => exact readIndexed_answers nofun
  | fbRead k => exact readIndexed_answers nofun
  | logRead a k => exact execLogRead_answers
  | wrByte _ | wrShort _ | wrUshort _ | wrInt _ | wrUint _ | wrLong _ | wrDouble _ => exact writeScalar_answers rfl
  | wrString _ | wrBytes _ | wrBytesLp _ => exact writeBytes_answers rfl
  | txBegin => exact Effect.txBegin.answers
  | frameEncode => exact execFrameEncode_answers
  | rdByte _ | rdShort _ | rdUshort _ | rdInt _ | rdUint _ | rdLong _ | rdDouble _ => exact readScalar_answers rfl
  | rdString _ | rdBytesLp _ => exact readPrefixed_answers rfl
  | rdBytes _ => exact execRdBytes_answers
  | frameDecode => exact execFrameDecode_answers
  | facRegister tag h => exact (Effect.register tag h).answers
  | facDispatch => exact execFacDispatch_answers

/-- The inversion of `exec`: the state it gives is an effect of the command with its answer. -/
theorem effect_of_exec {s t : State} {i : Instr} (h : exec i s = .next t) :
    ∃ u c nh d a, Effect s i c nh u ∧ t = u.finish c nh d a := by
  obtain ⟨u, c, nh, d, a, he, hr⟩ := exec_answers i s
  rw [h] at hr
  exact ⟨u, c, nh, d, a, he, Host.Outcome.next.inj hr⟩

/-- All a step can do, by what stands at the port. -/
theorem step_cases {s t : State} (h : step s = .next t) :
    t = s.idle ∨ t = s.takeReset ∨
    (∃ c rest e, s.pending = .command c :: rest ∧ decode c.cmd = .error e ∧ t = s.finish .illegal false 0 0) ∨
    (∃ c rest i, s.pending = .command c :: rest ∧ decode c.cmd = .ok i ∧ exec i s = .next t) := by
  unfold step at h
  obtain ⟨-, hp⟩ | ⟨rest, -, hp⟩ | ⟨c, rest, e, hpend, hd, hp⟩ | ⟨c, rest, i, hpend, hd, hp⟩ :=
    s.presented_cases <;> rw [hp] at h
  · exact .inl (Host.Outcome.next.inj h).symm
  · exact .inr (.inl (Host.Outcome.next.inj h).symm)
  · exact .inr (.inr (.inl ⟨c, rest, e, hpend, hd, (Host.Outcome.next.inj h).symm⟩))
  · exact .inr (.inr (.inr ⟨c, rest, i, hpend, hd, h⟩))

end Sys2Proof.Machine
end

section
/-! PROOFS. What STATUS reports, who writes which register and table, and when sessions open and close
(10_state.md R23 to R37), each read off the effect of the command. -/

namespace Sys2Proof.Machine

/-! ### The response -/

theorem Effect.noHandler_iff {s u : State} {i : Instr} {c : Cause} {nh : Bool} (h : Effect s i c nh u) :
    nh = true ↔ i = .facDispatch ∧ 8 ≤ s.mem.len .ibuf ∧ (s.entry (s.mem.byte .ibuf 1)).valid = false := by
  cases h with
  | unchanged short => simpa using fun hi hl => absurd (short hi) (Nat.not_lt.mpr hl)
  | noHandler header unknown => simp [header, unknown]
  | dispatchAccept known _ | dispatchReject known _ => simp [known]
  | poison write _ _ | append write _ _ _ => simpa using fun hi => absurd hi (ne_facDispatch_of_isWrite write)
  | rpoison read _ _ | consume read _ _ _ => simpa using fun hi => absurd hi (ne_facDispatch_of_isRead read)
  | _ => simp

theorem Effect.cause_of_noHandler {s u : State} {i : Instr} {c : Cause} (h : Effect s i c true u) : c = .ok := by
  cases h
  rfl

/-- The response of a step: STATUS is made of the channels the step leaves, NOHANDLER and the cause being
those of the command. -/
theorem response_of_step {s t : State} {r : Response} (h : step s = .next t) (hr : t.response = some r) :
    ∃ (c : Cause) (nh : Bool), r.status = statusWord c nh t.tx t.rx ∧ (nh = true → c = .ok) ∧
      (nh = true ↔ ∃ c rest, s.pending = .command c :: rest ∧ decode c.cmd = .ok .facDispatch ∧
        8 ≤ s.mem.len .ibuf ∧ (s.entry (s.mem.byte .ibuf 1)).valid = false) := by
  obtain rfl | rfl | ⟨cmd, rest, e, hp, hd, rfl⟩ | ⟨cmd, rest, i, hp, hd, hx⟩ := step_cases h
  · cases hr
  · cases hr
  · cases hr
    refine ⟨.illegal, false, rfl, nofun, nofun, ?_⟩
    rintro ⟨cmd', rest', hp', hd', -⟩
    rw [hp] at hp'
    cases hp'
    rw [hd] at hd'
    cases hd'
  · obtain ⟨u, c, nh, d, a, he, rfl⟩ := effect_of_exec hx
    cases hr
    refine ⟨c, nh, rfl, ?_, he.noHandler_iff.trans ⟨?_, ?_⟩⟩
    · rintro rfl
      exact he.cause_of_noHandler
    · rintro ⟨rfl, hl, hv⟩
      exact ⟨cmd, rest, hp, hd, hl, hv⟩
    · rintro ⟨cmd', rest', hp', hd', hl, hv⟩
      rw [hp] at hp'
      cases hp'
      rw [hd] at hd'
      cases hd'
      exact ⟨rfl, hl, hv⟩

theorem Tx.poisoned_eq (tx : Tx) : tx.poisoned = decide (tx.err ≠ 0x00#8) := by
  rw [Tx.poisoned, Bool.eq_iff_iff, bne_iff_ne, decide_eq_true_iff]

theorem Rx.poisoned_eq (rx : Rx) : rx.poisoned = decide (rx.err ≠ 0x00#8) := by
  rw [Rx.poisoned, Bool.eq_iff_iff, bne_iff_ne, decide_eq_true_iff]

/-- The bits of STATUS above the cause. -/
theorem statusWord_flags (c : Cause) (nh : Bool) (tx : Tx) (rx : Rx) :
    (statusWord c nh tx rx).getLsbD 9 = tx.active ∧ (statusWord c nh tx rx).getLsbD 10 = tx.poisoned ∧
    (statusWord c nh tx rx).getLsbD 11 = rx.valid ∧ (statusWord c nh tx rx).getLsbD 12 = rx.poisoned := by
  have above (k : Nat) (hk : 8 ≤ k) : c.code.getLsbD k = false := BitVec.getLsbD_of_ge _ _ hk
  refine ⟨?_, ?_, ?_, ?_⟩ <;> rw [getLsbD_statusWord _ _ _ _ (by decide), above _ (by decide)] <;> simp

/-- Settles O10: the bits of STATUS are those of `statusWord`, and only a FAC_DISPATCH whose effect is
`Effect.noHandler` sets NOHANDLER. -/
theorem statusReportsTheState : Obligations.StatusReportsTheState := by
  refine ⟨statusWord_cause, ?_, ?_⟩
  · intro s c dout daux
    simp [State.answered]
  · rintro s t ⟨status, dout, daux⟩ h hr
    obtain ⟨c, nh, rfl, hok, hnh⟩ := response_of_step h hr
    obtain ⟨h9, h10, h11, h12⟩ := statusWord_flags c nh t.tx t.rx
    refine ⟨h9, ?_, h11, ?_, statusWord_lt c nh t.tx t.rx, ?_, ?_⟩
    · rw [h10, Tx.poisoned_eq]
    · rw [h12, Rx.poisoned_eq]
    · rw [Response.noHandler_statusWord]
      exact hnh
    · rw [Response.noHandler_statusWord, Response.cause_statusWord]
      intro htrue
      rw [hok htrue, code_ok]

/-! ### Who writes what -/

section
variable {s u : State} {i : Instr} {c : Cause} {nh : Bool}

theorem Effect.cfgEndian_eq (h : Effect s i c nh u) (hi : ∀ a, i ≠ .setEndian a) (hr : i ≠ .sreset) :
    u.cfgEndian = s.cfgEndian := by
  cases h with
  | setEndian a => exact absurd rfl (hi a)
  | reset => exact absurd rfl hr
  | _ => rfl

theorem Effect.tx_typeTag_eq (h : Effect s i c nh u) (hi : ∀ a, i ≠ .setType a) (hr : i ≠ .sreset) :
    u.tx.typeTag = s.tx.typeTag := by
  cases h with
  | setType a => exact absurd rfl (hi a)
  | reset => exact absurd rfl hr
  | _ => rfl

theorem Effect.tx_seq_eq (h : Effect s i c nh u) (hi : ∀ a, i ≠ .setSeq a) (hr : i ≠ .sreset) :
    u.tx.seq = s.tx.seq := by
  cases h with
  | setSeq a => exact absurd rfl (hi a)
  | reset => exact absurd rfl hr
  | _ => rfl

theorem Effect.tx_errc_eq (h : Effect s i c nh u) (hi : ∀ a, i ≠ .setErrc a) (hr : i ≠ .sreset) :
    u.tx.errc = s.tx.errc := by
  cases h with
  | setErrc a => exact absurd rfl (hi a)
  | reset => exact absurd rfl hr
  | _ => rfl

/-- TX.ACTIVE: opened by TX_BEGIN, closed by FRAME_ENCODE of a clean session or by SRESET. -/
theorem Effect.tx_active_cases (h : Effect s i c nh u) :
    u.tx.active = s.tx.active ∨ i = .txBegin ∧ u.tx.active = true ∨
      i = .frameEncode ∧ s.tx.err = 0 ∧ u.tx.active = false ∨ i = .sreset ∧ u.tx.active = false := by
  cases h with
  | txBegin => exact .inr (.inl ⟨rfl, rfl⟩)
  | encode opened => exact .inr (.inr (.inl ⟨rfl, ((State.txClosed_eq_false_iff s).mp opened).2, rfl⟩))
  | reset => exact .inr (.inr (.inr ⟨rfl, rfl⟩))
  | _ => exact .inl rfl

theorem Effect.tx_endian_eq (h : Effect s i c nh u) (hi : i ≠ .txBegin) (hr : i ≠ .sreset) :
    u.tx.endian = s.tx.endian := by
  cases h with
  | txBegin => exact absurd rfl hi
  | reset => exact absurd rfl hr
  | _ => rfl

/-- TX.ERR: cleared by TX_BEGIN and SRESET, set only by a WR_* on a clean session (10_state.md R25). -/
theorem Effect.tx_err_cases (h : Effect s i c nh u) :
    u.tx.err = s.tx.err ∨ i = .txBegin ∨ i = .sreset ∨ isWrite i = true ∧ s.tx.err = 0 := by
  cases h with
  | txBegin => exact .inr (.inl rfl)
  | reset => exact .inr (.inr (.inl rfl))
  | poison write opened _ => exact .inr (.inr (.inr ⟨write, ((State.txClosed_eq_false_iff s).mp opened).2⟩))
  | _ => exact .inl rfl

theorem Effect.tx_log_cases (h : Effect s i c nh u) :
    u.tx.log = s.tx.log ∨ (isWrite i = true ∧ ∃ r, u.tx.log = s.tx.log ++ [r]) ∨
      ((i = .txBegin ∨ i = .sreset) ∧ u.tx.log = []) := by
  cases h with
  | append write _ _ _ => exact .inr (.inl ⟨write, _, rfl⟩)
  | txBegin => exact .inr (.inr ⟨.inl rfl, rfl⟩)
  | reset => exact .inr (.inr ⟨.inr rfl, rfl⟩)
  | _ => exact .inl rfl

theorem Effect.tx_checksums_eq (h : Effect s i c nh u) (hi : i ≠ .frameEncode) (hr : i ≠ .sreset) :
    u.tx.hck = s.tx.hck ∧ u.tx.dck = s.tx.dck := by
  cases h with
  | encode _ => exact absurd rfl hi
  | reset => exact absurd rfl hr
  | _ => exact ⟨rfl, rfl⟩

/-- RX: written by the commands that may run RX_CLEAR, and by an RD_* of an open session. -/
theorem Effect.rx_cases (h : Effect s i c nh u) :
    u.rx = s.rx ∨ clearsRx i = true ∨
      isRead i = true ∧ s.rx.valid = true ∧
        (c ≠ .ok ∧ u.rx = { s.rx with err := c.code, valid := false } ∨
          ∃ off r, u.rx = { s.rx with off := off, log := s.rx.log ++ [r] }) := by
  cases h with
  | rpoison read opened fails => exact .inr (.inr ⟨read, opened, .inl ⟨fails, rfl⟩⟩)
  | consume read opened _ _ => exact .inr (.inr ⟨read, opened, .inr ⟨_, _, rfl⟩⟩)
  | reset | inClear | inPush _ _ | accept _ | reject _ | dispatchAccept _ _ | dispatchReject _ _ =>
    exact .inr (.inl rfl)
  | _ => exact .inl rfl

theorem Effect.rx_eq (h : Effect s i c nh u) (hc : clearsRx i = false) (hr : isRead i = false) : u.rx = s.rx := by
  obtain he | hc' | ⟨hr', -⟩ := h.rx_cases
  · exact he
  · exact absurd hc' (by simp [hc])
  · exact absurd hr' (by simp [hr])

theorem Effect.rx_endian_eq (h : Effect s i c nh u) (hf : i ≠ .frameDecode) (hd : i ≠ .facDispatch)
    (hr : i ≠ .sreset) : u.rx.endian = s.rx.endian := by
  cases h with
  | accept _ | reject _ => exact absurd rfl hf
  | dispatchAccept _ _ | dispatchReject _ _ => exact absurd rfl hd
  | reset => exact absurd rfl hr
  | _ => rfl

theorem Effect.rx_header_eq (h : Effect s i c nh u) (hc : clearsRx i = false) :
    u.rx.typeTag = s.rx.typeTag ∧ u.rx.seq = s.rx.seq ∧ u.rx.errc = s.rx.errc ∧
      u.rx.dsize = s.rx.dsize ∧ u.rx.hck = s.rx.hck ∧ u.rx.dck = s.rx.dck ∧ u.rx.endOff = s.rx.endOff := by
  obtain he | hc' | ⟨-, -, ⟨-, he⟩ | ⟨off, r, he⟩⟩ := h.rx_cases
  · simp [he]
  · exact absurd hc' (by simp [hc])
  · simp [he]
  · simp [he]

theorem Effect.rx_log_cases (h : Effect s i c nh u) :
    u.rx.log = s.rx.log ∨ (isRead i = true ∧ ∃ r, u.rx.log = s.rx.log ++ [r]) ∨
      (clearsRx i = true ∧ u.rx.log = []) := by
  cases h with
  | consume read _ _ _ => exact .inr (.inl ⟨read, _, rfl⟩)
  | reset | inClear | inPush _ _ | accept _ | reject _ | dispatchAccept _ _ | dispatchReject _ _ =>
    exact .inr (.inr ⟨rfl, rfl⟩)
  | _ => exact .inl rfl

theorem Effect.registry_eq (h : Effect s i c nh u) (hi : ∀ a b, i ≠ .facRegister a b) (hr : i ≠ .sreset) :
    u.registry = s.registry := by
  cases h with
  | register tag b => exact absurd rfl (hi tag b)
  | reset => exact absurd rfl hr
  | _ => rfl

theorem Effect.fac_eq (h : Effect s i c nh u) (hi : i ≠ .facDispatch) (hr : i ≠ .sreset) : u.fac = s.fac := by
  cases h with
  | noHandler _ _ | dispatchAccept _ _ | dispatchReject _ _ => exact absurd rfl hi
  | reset => exact absurd rfl hr
  | _ => rfl

theorem Effect.tx_active_eq (h : Effect s i c nh u) (hb : i ≠ .txBegin) (he : i ≠ .frameEncode)
    (hr : i ≠ .sreset) : u.tx.active = s.tx.active := by
  obtain ha | ⟨hi, -⟩ | ⟨hi, -⟩ | ⟨hi, -⟩ := h.tx_active_cases
  · exact ha
  · exact absurd hi hb
  · exact absurd hi he
  · exact absurd hi hr

theorem Effect.tx_err_eq (h : Effect s i c nh u) (hb : i ≠ .txBegin) (hw : isWrite i = false)
    (hr : i ≠ .sreset) : u.tx.err = s.tx.err := by
  obtain he | hi | hi | ⟨hi, -⟩ := h.tx_err_cases
  · exact he
  · exact absurd hi hb
  · exact absurd hi hr
  · exact absurd hi (by simp [hw])

theorem Effect.tx_log_eq (h : Effect s i c nh u) (hb : i ≠ .txBegin) (hw : isWrite i = false)
    (hr : i ≠ .sreset) : u.tx.log = s.tx.log := by
  obtain he | ⟨hi, -⟩ | ⟨hi | hi, -⟩ := h.tx_log_cases
  · exact he
  · exact absurd hi (by simp [hw])
  · exact absurd hi hb
  · exact absurd hi hr

end

/-- Settles O49: one frame lemma of `Effect` per register or table. -/
theorem stateChangesOnlyByItsWriters : Obligations.StateChangesOnlyByItsWriters := by
  intro s t i h hr
  obtain ⟨u, c, nh, d, a, he, rfl⟩ := effect_of_exec h
  exact ⟨fun hi => he.cfgEndian_eq hi hr, fun hi => he.tx_typeTag_eq hi hr, fun hi => he.tx_seq_eq hi hr,
    fun hi => he.tx_errc_eq hi hr, fun ⟨hb, hf⟩ => he.tx_active_eq hb hf hr, fun hi => he.tx_endian_eq hi hr,
    fun ⟨hb, hw⟩ => ⟨he.tx_err_eq hb hw hr, he.tx_log_eq hb hw hr⟩, fun hi => he.tx_checksums_eq hi hr,
    fun ⟨hc, hread⟩ => he.rx_eq hc hread, fun ⟨hf, hd⟩ => he.rx_endian_eq hf hd hr, he.rx_header_eq,
    fun hi => he.registry_eq hi hr, fun hi => he.fac_eq hi hr⟩

/-- Settles O53: WRITE_FIELD and CONSUME append one record, and nothing else but an emptying touches a log. -/
theorem logsOnlyAppendOrEmpty : Obligations.LogsOnlyAppendOrEmpty := by
  intro s t i h
  obtain ⟨u, c, nh, d, a, he, rfl⟩ := effect_of_exec h
  exact ⟨he.tx_log_cases, he.rx_log_cases⟩

/-! ### Sessions and sticky errors -/

section
variable {s u : State} {i : Instr} {c : Cause} {nh : Bool}

/-- RX.VALID: opened by FRAME_DECODE and FAC_DISPATCH, closed by RX_CLEAR and by an RD_* that fails. -/
theorem Effect.rx_valid_cases (h : Effect s i c nh u) :
    u.rx.valid = s.rx.valid ∨ (i = .frameDecode ∨ i = .facDispatch) ∨
      u.rx.valid = false ∧ (clearsRx i = true ∨ isRead i = true ∧ c ≠ .ok) := by
  cases h with
  | accept _ | reject _ => exact .inr (.inl (.inl rfl))
  | dispatchAccept _ _ | dispatchReject _ _ => exact .inr (.inl (.inr rfl))
  | reset | inClear | inPush _ _ => exact .inr (.inr ⟨rfl, .inl rfl⟩)
  | rpoison read _ fails => exact .inr (.inr ⟨rfl, .inr ⟨read, fails⟩⟩)
  | _ => exact .inl rfl

/-- RX.ERR is sticky in a state that meets the invariants: an RD_* sets it only in an open session, which
is clean. -/
theorem Effect.rx_err_cases (h : Effect s i c nh u) (hs : s.Inv) :
    u.rx.err = s.rx.err ∨ clearsRx i = true ∨ s.rx.err = 0 := by
  obtain he | hc | ⟨-, hv, -⟩ := h.rx_cases
  · exact .inl (by rw [he])
  · exact .inr (.inl hc)
  · exact .inr (.inr (hs.session hv).clean)

end

theorem code_ne_zero {c : Cause} (h : c ≠ .ok) : c.code ≠ 0x00#8 := fun he => h (code_injective he)

/-- Settles O55: each clause is one case list of `Effect` read in one direction. -/
theorem sessionsOpenOnlyByTheirCommands : Obligations.SessionsOpenOnlyByTheirCommands := by
  intro s t i hs h
  obtain ⟨u, c, nh, d, a, he, rfl⟩ := effect_of_exec h
  simp only [State.finish_tx, State.finish_rx, State.finish_response]
  refine ⟨?_, ?_, ?_, ?_, ?_, ?_⟩
  · intro ht
    obtain ha | ⟨hi, -⟩ | ⟨-, -, hf⟩ | ⟨-, hf⟩ := he.tx_active_cases
    · exact .inl (ha ▸ ht)
    · exact .inr hi
    · simp [hf] at ht
    · simp [hf] at ht
  · intro hf
    obtain ha | ⟨-, ht⟩ | ⟨hi, herr, -⟩ | ⟨hi, -⟩ := he.tx_active_cases
    · exact .inl (ha ▸ hf)
    · simp [ht] at hf
    · exact .inr (.inl ⟨hi, herr⟩)
    · exact .inr (.inr hi)
  · intro herr
    obtain hk | hi | hi | ⟨-, hz⟩ := he.tx_err_cases
    · exact .inl hk
    · exact .inr (.inl hi)
    · exact .inr (.inr hi)
    · exact absurd hz herr
  · intro ht
    obtain hv | hi | ⟨hf, -⟩ := he.rx_valid_cases
    · exact .inl (hv ▸ ht)
    · exact .inr hi
    · simp [hf] at ht
  · intro hf
    obtain hv | (rfl | rfl) | ⟨-, hc | ⟨hread, hfail⟩⟩ := he.rx_valid_cases
    · exact .inl (hv ▸ hf)
    · exact .inr (.inl rfl)
    · exact .inr (.inl rfl)
    · exact .inr (.inl hc)
    · exact .inr (.inr ⟨hread, _, rfl, by simpa using code_ne_zero hfail⟩)
  · intro herr
    obtain hk | hc | hz := he.rx_err_cases hs
    · exact .inl hk
    · exact .inr hc
    · exact absurd hz herr

end Sys2Proof.Machine
end

section
/-! PROOFS. The invariants of 10_state.md R39, split into what speaks of the memory, of the TX channel and
of the RX channel, and kept by every effect and so by every step. -/

namespace Sys2Proof.Machine

/-! ### The three parts of the invariants -/

/-- The part of `State.Inv` about the memory alone. -/
structure Memory.Inv (m : Memory) : Prop where
  memory : m.wf = true
  frame : m.len .fbuf = 0 ∨ m.len .fbuf = 8 ∨ ∃ n, 1 ≤ n ∧ n ≤ 2491 ∧ m.len .fbuf = 9 + n

/-- The part about the TX channel, the length `olen` of OBUF being all it asks of the memory. -/
structure Tx.Inv (tx : Tx) (olen : Nat) : Prop where
  logCap : tx.log.length ≤ Config.logCap
  log : logBytes tx.log = olen
  poisoned : tx.err ≠ 0x00#8 → tx.active = true

/-- The part about the RX channel and IBUF. -/
structure State.RxInv (s : State) : Prop where
  logCap : s.rx.log.length ≤ Config.logCap
  log : s.rx.endOff ≠ 0#16 → 8 + logBytes s.rx.log = s.rx.off.toNat
  session : s.rx.valid = true → s.SessionOpen

theorem State.inv_iff (s : State) : s.Inv ↔ s.mem.Inv ∧ s.tx.Inv (s.mem.len .obuf) ∧ s.RxInv :=
  ⟨fun h => ⟨⟨h.memory, h.frame⟩, ⟨h.txLogCap, h.txLog, h.poisoned⟩, ⟨h.rxLogCap, h.rxLog, h.session⟩⟩,
   fun ⟨hm, ht, hr⟩ => ⟨hm.memory, hm.frame, ht.logCap, hr.logCap, ht.log, hr.log, hr.session, ht.poisoned⟩⟩

/-! ### The memory -/

/-- A write of a space other than FBUF that keeps to its capacity. -/
theorem Memory.Inv.set {m : Memory} (h : m.Inv) {sp : Space} {bs : List Byte} (hsp : .fbuf ≠ sp)
    (hb : bs.length ≤ Config.capacity sp) : (m.set sp bs).Inv where
  memory := Memory.wf_set h.memory hb
  frame := by rw [Memory.len_set_other _ _ hsp]; exact h.frame

theorem Memory.Inv.clear {m : Memory} (h : m.Inv) (sp : Space) (hsp : .fbuf ≠ sp) : (m.set sp []).Inv :=
  h.set hsp (Nat.zero_le _)

theorem Memory.Inv.push {m : Memory} (h : m.Inv) {sp : Space} {bs : List Byte} (hsp : .fbuf ≠ sp)
    (hb : m.len sp + bs.length ≤ Config.capacity sp) : (m.push sp bs).Inv :=
  h.set hsp (by simpa [Memory.len] using hb)

/-- One byte fits in a space that is not full. -/
theorem Memory.Inv.push_byte {m : Memory} (h : m.Inv) {sp : Space} {b : Byte} (hsp : .fbuf ≠ sp)
    (room : m.len sp ≠ Config.capacity sp) : (m.push sp [b]).Inv := by
  have hle : m.len sp ≤ Config.capacity sp := (Memory.wf_iff m).mp h.memory sp
  exact h.push hsp (by rw [List.length_singleton]; omega)

theorem buildFrame_length (e : Endian) (t : Byte) (seq : BitVec 16) (errc : Byte) (p : List Byte) :
    (buildFrame e t seq errc p).length = if p = [] then 8 else 9 + p.length := by
  rw [buildFrame_eq]
  by_cases hp : p = [] <;> simp [hp]
  omega

/-- A frame of a payload that OBUF may hold has a length FB.LEN may have. -/
theorem Memory.Inv.encode {m : Memory} (h : m.Inv) (e : Endian) (t : Byte) (seq : BitVec 16) (errc : Byte) :
    (m.set .fbuf (buildFrame e t seq errc m.obuf)).Inv := by
  have hle : m.obuf.length ≤ 2491 := (Memory.wf_iff m).mp h.memory .obuf
  have hlen := buildFrame_length e t seq errc m.obuf
  by_cases hp : m.obuf = []
  · rw [if_pos hp] at hlen
    refine ⟨Memory.wf_set h.memory (hlen.trans_le (by decide)), .inr (.inl ?_)⟩
    rw [Memory.len_set_same, hlen]
  · rw [if_neg hp] at hlen
    have hpos : 1 ≤ m.obuf.length := List.length_pos_iff.mpr hp
    have hcap : (buildFrame e t seq errc m.obuf).length ≤ 2500 := by omega
    refine ⟨Memory.wf_set h.memory hcap, .inr (.inr ⟨m.obuf.length, hpos, hle, ?_⟩)⟩
    rw [Memory.len_set_same, hlen]

theorem reset_memInv : State.reset.mem.Inv := ⟨reset_mem_wf, .inl rfl⟩

section
variable {s u : State} {i : Instr} {c : Cause} {nh : Bool}

theorem Effect.keeps_memInv (h : Effect s i c nh u) (hs : s.mem.Inv) : u.mem.Inv := by
  cases h with
  | reset => exact reset_memInv
  | stgClear => exact hs.clear .stage nofun
  | inClear => exact hs.clear .ibuf nofun
  | txBegin => exact hs.clear .obuf nofun
  | stgPush b room | inPush b room => exact hs.push_byte (by decide) room
  | append _ _ fits _ => exact hs.push (by decide) fits
  | encode _ => exact hs.encode ..
  | _ => exact hs

end

/-! ### The TX channel -/

theorem toNat_ofNat16 {n : Nat} (h : n < 65536) : (BitVec.ofNat 16 n).toNat = n := Nat.mod_eq_of_lt h

@[simp] theorem logBytes_nil : logBytes [] = 0 := rfl

theorem logBytes_append (log : List Record) (r : Record) : logBytes (log ++ [r]) = logBytes log + r.size.toNat := by
  simp [logBytes]

/-- A log that is not full has room for one record. -/
theorem length_append_le_logCap {log : List Record} (r : Record) (h : log.length ≤ Config.logCap)
    (room : log.length ≠ Config.logCap) : (log ++ [r]).length ≤ Config.logCap := by
  rw [List.length_append, List.length_singleton]
  omega

/-- WRITE_FIELD adds the same number to TX.OLEN and to the sizes in TX.LOG. -/
theorem Tx.Inv.append {tx : Tx} {olen : Nat} (h : tx.Inv olen) (name : BitVec 32) (e : BitVec 16) (t : FieldType)
    {n : Nat} (fits : olen + n ≤ 2491) (room : tx.log.length ≠ Config.logCap) :
    Tx.Inv { tx with log := tx.log ++ [⟨name, e, BitVec.ofNat 16 n, t⟩] } (olen + n) where
  logCap := length_append_le_logCap _ h.logCap room
  log := by rw [logBytes_append, h.log, toNat_ofNat16 (by omega)]
  poisoned := h.poisoned

theorem reset_txInv : State.reset.tx.Inv (State.reset.mem.len .obuf) := ⟨Nat.zero_le _, rfl, fun h => absurd rfl h⟩

section
variable {s u : State} {i : Instr} {c : Cause} {nh : Bool}

theorem Effect.keeps_txInv (h : Effect s i c nh u) (hs : s.tx.Inv (s.mem.len .obuf)) :
    u.tx.Inv (u.mem.len .obuf) := by
  cases h with
  | reset => exact reset_txInv
  | setType _ | setSeq _ | setErrc _ => exact ⟨hs.logCap, hs.log, hs.poisoned⟩
  | txBegin => exact ⟨Nat.zero_le _, rfl, fun _ => rfl⟩
  | poison _ opened _ => exact ⟨hs.logCap, hs.log, fun _ => ((State.txClosed_eq_false_iff s).mp opened).1⟩
  | append _ _ fits room =>
    rw [State.appendField_mem, Memory.len_push_same]
    exact hs.append _ _ _ fits room
  | encode opened =>
    have clean : s.tx.err = 0 := ((State.txClosed_eq_false_iff s).mp opened).2
    exact ⟨hs.logCap, hs.log, fun herr => absurd clean herr⟩
  | _ => exact hs

end

/-! ### The RX channel -/

theorem State.SessionOpen.congr {s u : State} (h : s.SessionOpen) (hrx : u.rx = s.rx)
    (hib : u.mem.ibuf = s.mem.ibuf) : u.SessionOpen := by
  have hlen : u.mem.len .ibuf = s.mem.len .ibuf := congrArg List.length hib
  have hbyte : u.mem.byte? .ibuf 0 = s.mem.byte? .ibuf 0 := congrArg (·[0]?) hib
  exact { clean := hrx ▸ h.clean, header := hlen ▸ h.header, initByte := hbyte ▸ h.initByte, stop := hrx ▸ h.stop,
          size := hrx ▸ h.size, start := hrx ▸ h.start, cursor := hrx ▸ h.cursor, whole := hrx ▸ hlen ▸ h.whole }

theorem State.RxInv.congr {s u : State} (h : s.RxInv) (hrx : u.rx = s.rx) (hib : u.mem.ibuf = s.mem.ibuf) :
    u.RxInv where
  logCap := hrx ▸ h.logCap
  log := hrx ▸ h.log
  session := fun hv => (h.session (hrx ▸ hv)).congr hrx hib

/-- Nothing is asked of an RX channel with no session, no payload end and no log. -/
theorem State.RxInv.of_empty {s : State} (hv : s.rx.valid = false) (hend : s.rx.endOff = 0) (hlog : s.rx.log = []) :
    s.RxInv where
  logCap := by rw [hlog]; exact Nat.zero_le _
  log := fun h => absurd hend h
  session := fun h => by rw [hv] at h; cases h

theorem State.RxInv.setRxErr {s : State} (h : s.RxInv) (c : Cause) : (s.setRxErr c).RxInv where
  logCap := h.logCap
  log := h.log
  session := nofun

/-- CONSUME adds the same number to RX.OFF and to the sizes in RX.LOG, and RX.OFF stays within RX.END. -/
theorem State.RxInv.consume {s : State} (h : s.RxInv) {t : FieldType} {e : BitVec 16} {n : Nat}
    (hv : s.rx.valid = true) (within : s.rx.off.toNat + n ≤ s.rx.endOff.toNat)
    (room : s.rx.log.length ≠ Config.logCap) : (s.consume t e n).RxInv := by
  have hend : s.rx.endOff.toNat < 65536 := s.rx.endOff.isLt
  have hn : (BitVec.ofNat 16 n).toNat = n := toNat_ofNat16 (by omega)
  have hoff : (BitVec.ofNat 16 (s.rx.off.toNat + n)).toNat = s.rx.off.toNat + n := toNat_ofNat16 (by omega)
  have hopen := h.session hv
  refine ⟨length_append_le_logCap _ h.logCap room, fun hne => ?_, fun _ => ?_⟩
  · rw [State.consume_rx, logBytes_append, hoff, hn, ← h.log hne, Nat.add_assoc]
  · have start : 8 ≤ s.rx.off.toNat := hopen.start
    exact { clean := hopen.clean, header := hopen.header, initByte := hopen.initByte, stop := hopen.stop,
            size := hopen.size, whole := hopen.whole,
            start := by rw [State.consume_rx, hoff]; omega
            cursor := by rw [State.consume_rx, hoff]; exact within }

theorem Memory.byte?_of_lt (m : Memory) {sp : Space} {a : Nat} (h : a < m.len sp) :
    m.byte? sp a = some (m.byte sp a) := by
  have hsome : m.byte? sp a = some ((m.get sp)[a]) := List.getElem?_eq_getElem h
  rw [Memory.byte_of_byte? hsome, hsome]

/-- What an accepted frame says of its data size. -/
theorem checkFrame_dsize {m : Memory} {e : Endian} {h : Header} (hc : checkFrame m e = .ok h) :
    h.dsize ≤ 2491 ∧ (h.dsize = 0 ∨ 9 + h.dsize ≤ m.len .ibuf) := by
  obtain ⟨-, -, -, hle, hp⟩ := checkFrame_ok hc
  obtain ⟨hsize, -, -, -, -, hdata⟩ := checkPayload_ok hp
  rw [hsize]
  obtain ⟨hz, -⟩ | ⟨-, hwhole, -⟩ := hdata
  · exact ⟨hle, .inl hz⟩
  · exact ⟨hle, .inr hwhole⟩

/-- The checks of FRAME_DECODE give everything RX.VALID = 1 implies. -/
theorem sessionOpen_of_checkFrame {s : State} {h : Header} (hc : checkFrame s.mem s.cfgEndian = .ok h) :
    (s.startDecode.openSession h).SessionOpen := by
  obtain ⟨hlen, hinit, -, -, -⟩ := checkFrame_ok hc
  obtain ⟨hle, hwhole⟩ := checkFrame_dsize hc
  have hd : (BitVec.ofNat 16 h.dsize).toNat = h.dsize := toNat_ofNat16 (by omega)
  have he : (BitVec.ofNat 16 (8 + h.dsize)).toNat = 8 + h.dsize := toNat_ofNat16 (by omega)
  exact
    { clean := rfl
      header := hlen
      initByte := (s.mem.byte?_of_lt (by omega)).trans (congrArg some hinit)
      stop := by rw [State.openSession_rx, hd, he]
      size := by rw [State.openSession_rx, hd]; exact hle
      start := Nat.le_refl 8
      cursor := by rw [State.openSession_rx, he]; exact Nat.le_add_right 8 _
      whole := hwhole.imp (fun hz => by rw [State.openSession_rx, hz])
        (fun hw => by rw [State.openSession_rx, hd]; exact hw) }

theorem rxInv_of_checkFrame {s : State} {h : Header} (hc : checkFrame s.mem s.cfgEndian = .ok h) :
    (s.startDecode.openSession h).RxInv where
  logCap := Nat.zero_le _
  log := fun _ => rfl
  session := fun _ => sessionOpen_of_checkFrame hc

section
variable {s u : State} {i : Instr} {c : Cause} {nh : Bool}

theorem Effect.keeps_rxInv (h : Effect s i c nh u) (hs : s.RxInv) : u.RxInv := by
  cases h with
  | reset | inClear | inPush _ _ | reject _ | dispatchReject _ _ => exact .of_empty rfl rfl rfl
  | rpoison _ _ _ => exact hs.setRxErr _
  | consume _ opened within room => exact hs.consume opened within room
  | accept passed => exact rxInv_of_checkFrame passed
  | dispatchAccept _ passed => exact rxInv_of_checkFrame (s := s.foundHandler) passed
  | _ => exact hs.congr rfl rfl

/-! ### Every step -/

theorem Effect.keeps_inv (h : Effect s i c nh u) (hs : s.Inv) : u.Inv := by
  obtain ⟨hm, ht, hr⟩ := s.inv_iff.mp hs
  exact u.inv_iff.mpr ⟨h.keeps_memInv hm, h.keeps_txInv ht, h.keeps_rxInv hr⟩

/-- The invariants speak of the channels and the memory only, not of the port. -/
theorem State.Inv.congr (hs : s.Inv) (hmem : u.mem = s.mem) (htx : u.tx = s.tx) (hrx : u.rx = s.rx) : u.Inv := by
  obtain ⟨hm, ht, hr⟩ := s.inv_iff.mp hs
  exact u.inv_iff.mpr ⟨hmem ▸ hm, hmem ▸ htx ▸ ht, hr.congr hrx (congrArg Memory.ibuf hmem)⟩

end

/-- Settles O14: the three parts at reset. -/
theorem resetMeetsInvariants : Obligations.ResetMeetsInvariants :=
  State.reset.inv_iff.mpr ⟨reset_memInv, reset_txInv, .of_empty rfl rfl rfl⟩

/-- Settles O15: a step is idle, a reset, an illegal word or a command, and the effect of a command keeps
the memory's, the TX channel's and the RX channel's part of the invariants. -/
theorem stepKeepsInvariants : Obligations.StepKeepsInvariants := by
  intro s t hs h
  obtain rfl | rfl | ⟨c, rest, e, -, -, rfl⟩ | ⟨c, rest, i, -, -, hx⟩ := step_cases h
  · exact hs.congr rfl rfl rfl
  · exact resetMeetsInvariants.congr rfl rfl rfl
  · exact hs.congr rfl rfl rfl
  · obtain ⟨u, c, nh, d, a, he, rfl⟩ := effect_of_exec hx
    exact (he.keeps_inv hs).congr rfl rfl rfl

end Sys2Proof.Machine
end

section
/-! PROOFS. The TX and RX channels do not influence each other (10_state.md R20, 20_memory.md R60): a command
of one side commutes with any change of what belongs to the other side. -/

namespace Sys2Proof.Machine

/-! ### Two runs side by side -/

/-- `r'` answers as `r` does, from a block that `f` changed. -/
def Commutes (f : State → State) (r r' : Result) : Prop :=
  ∃ u c nh d a, r = .next (u.finish c nh d a) ∧ r' = .next ((f u).finish c nh d a)

theorem Commutes.finish {f : State → State} (u : State) {c : Cause} {nh : Bool} {d : BitVec 64} {a : BitVec 16} :
    Commutes f (.next (u.finish c nh d a)) (.next ((f u).finish c nh d a)) := ⟨u, c, nh, d, a, rfl, rfl⟩

/-- Both runs take the same branch. -/
theorem Commutes.ite {f : State → State} {p q : Prop} [Decidable p] [Decidable q] {r₁ r₂ r₁' r₂' : Result}
    (hpq : p ↔ q) (h₁ : p → Commutes f r₁ r₁') (h₂ : ¬p → Commutes f r₂ r₂') :
    Commutes f (if p then r₁ else r₂) (if q then r₁' else r₂') := by
  by_cases hp : p
  · rw [if_pos hp, if_pos (hpq.mp hp)]
    exact h₁ hp
  · rw [if_neg hp, if_neg (mt hpq.mpr hp)]
    exact h₂ hp

/-- What the host compares of two runs that commute: the results, and a part of the block `f` leaves alone. -/
theorem Commutes.observed {f : State → State} {r' : Result} {t : State} (h : Commutes f (.next t) r') :
    ∃ v u, r' = .next u ∧ t.tx = v.tx ∧ t.rx = v.rx ∧ t.mem = v.mem ∧ t.fac = v.fac ∧
      u.tx = (f v).tx ∧ u.rx = (f v).rx ∧ u.mem = (f v).mem ∧ u.fac = (f v).fac ∧
      u.response.map (fun r => (r.cause, r.dout, r.daux)) = t.response.map (fun r => (r.cause, r.dout, r.daux)) := by
  obtain ⟨v, c, nh, d, a, ht, hr⟩ := h
  cases ht
  exact ⟨v, _, hr, rfl, rfl, rfl, rfl, rfl, rfl, rfl, rfl, by simp⟩

/-! ### The TX side -/

/-- The same block with any RX channel, IBUF, registry and last dispatch. -/
def State.withRxSide (rx : Rx) (ibuf : List Byte) (reg : Vector RegEntry 256) (fac : Fac) (s : State) : State :=
  { s with rx := rx, mem := { s.mem with ibuf := ibuf }, registry := reg, fac := fac }

theorem readIndexed_of_some {sp : Space} {k : BitVec 16} {s : State} {b : Byte}
    (h : s.mem.byte? sp k.toNat = some b) : readIndexed sp k s = s.respond (b.setWidth 64) 0 := by
  simp only [readIndexed, h]

theorem readIndexed_of_none {sp : Space} {k : BitVec 16} {s : State} (h : s.mem.byte? sp k.toNat = none) :
    readIndexed sp k s = s.raise .bounds := by
  simp only [readIndexed, h]

section
variable {rx : Rx} {ibuf : List Byte} {reg : Vector RegEntry 256} {fac : Fac} {s : State}

theorem writeField_commutes {t : FieldType} {e : BitVec 16} {bs : List Byte} :
    Commutes (State.withRxSide rx ibuf reg fac) (writeField t e bs s)
      (writeField t e bs (s.withRxSide rx ibuf reg fac)) :=
  .ite Iff.rfl (fun _ => .finish (s.setTxErr .overflow)) fun _ =>
    .ite Iff.rfl (fun _ => .finish (s.setTxErr .overflow)) fun _ => .finish (s.appendField t e bs)

theorem writeScalar_commutes {t : FieldType} {e : BitVec 16} :
    Commutes (State.withRxSide rx ibuf reg fac) (writeScalar t e s)
      (writeScalar t e (s.withRxSide rx ibuf reg fac)) :=
  .ite Iff.rfl (fun _ => .finish s) fun _ =>
    .ite Iff.rfl (fun _ => writeField_commutes) fun _ => .finish (s.setTxErr .range)

theorem writeBytes_commutes {t : FieldType} {e : BitVec 16} {bs : List Byte} :
    Commutes (State.withRxSide rx ibuf reg fac) (writeBytes t e bs s)
      (writeBytes t e bs (s.withRxSide rx ibuf reg fac)) :=
  .ite Iff.rfl (fun _ => .finish s) fun _ => writeField_commutes

theorem byte?_fbuf_withRxSide {a : Nat} :
    (s.withRxSide rx ibuf reg fac).mem.byte? .fbuf a = s.mem.byte? .fbuf a := rfl

theorem execFbRead_commutes {k : BitVec 16} :
    Commutes (State.withRxSide rx ibuf reg fac) (execFbRead k s) (execFbRead k (s.withRxSide rx ibuf reg fac)) := by
  unfold execFbRead
  cases h : s.mem.byte? .fbuf k.toNat with
  | none =>
    rw [readIndexed_of_none h, readIndexed_of_none (byte?_fbuf_withRxSide.trans h)]
    exact .finish s
  | some b =>
    rw [readIndexed_of_some h, readIndexed_of_some (byte?_fbuf_withRxSide.trans h)]
    exact .finish s

theorem write_commutes {i : Instr} (hi : isWrite i = true) :
    Commutes (State.withRxSide rx ibuf reg fac) (exec i s) (exec i (s.withRxSide rx ibuf reg fac)) := by
  cases i with
  | wrByte _ | wrShort _ | wrUshort _ | wrInt _ | wrUint _ | wrLong _ | wrDouble _ => exact writeScalar_commutes
  | wrString _ | wrBytes _ | wrBytesLp _ => exact writeBytes_commutes
  | _ => cases hi

theorem txSide_commutes {i : Instr} (hi : isWrite i = true ∨ i = .txBegin ∨ i = .frameEncode ∨ i = .stgClear ∨
      (∃ b, i = .stgPush b) ∨ ∃ k, i = .fbRead k) :
    Commutes (State.withRxSide rx ibuf reg fac) (exec i s) (exec i (s.withRxSide rx ibuf reg fac)) := by
  obtain hw | rfl | rfl | rfl | ⟨b, rfl⟩ | ⟨k, rfl⟩ := hi
  · exact write_commutes hw
  · exact .finish { s with tx := s.tx.begun s.cfgEndian, mem := s.mem.set .obuf [] }
  · exact .ite Iff.rfl (fun _ => .finish s) fun _ => .finish s.encodeFrame
  · exact .finish { s with mem := s.mem.set .stage [] }
  · exact .ite Iff.rfl (fun _ => .finish s) fun _ => .finish { s with mem := s.mem.push .stage [b] }
  · exact execFbRead_commutes

end

/-! ### The RX side -/

/-- The same block with any TX channel, OBUF, FBUF and STAGE. -/
def State.withTxSide (tx : Tx) (obuf fbuf stage : List Byte) (s : State) : State :=
  { s with tx := tx, mem := { s.mem with obuf := obuf, fbuf := fbuf, stage := stage } }

theorem execFrameDecode_of_ok {s : State} {h : Header} (hc : checkFrame s.mem s.cfgEndian = .ok h) :
    execFrameDecode s = (s.startDecode.openSession h).respond (BitVec.ofNat 64 h.dsize) 0 := by
  simp only [execFrameDecode, State.decodeFrame, hc]

theorem execFrameDecode_of_error {s : State} {c : Cause} (hc : checkFrame s.mem s.cfgEndian = .error c) :
    execFrameDecode s = (s.startDecode.failDecode c).raise c := by
  simp only [execFrameDecode, State.decodeFrame, hc]

theorem dispatchFound_of_ok {s : State} {h : Header} (hc : checkFrame s.mem s.cfgEndian = .ok h) :
    dispatchFound s = (s.startDecode.openSession h).respond (s.fac.handler.setWidth 64) 1 := by
  simp only [dispatchFound, State.decodeFrame, hc]
  rfl

theorem dispatchFound_of_error {s : State} {c : Cause} (hc : checkFrame s.mem s.cfgEndian = .error c) :
    dispatchFound s = (s.startDecode.failDecode c).raiseDispatched c := by
  simp only [dispatchFound, State.decodeFrame, hc]

section
variable {tx : Tx} {obuf fbuf stage : List Byte} {s : State}

/-- The frame validator reads IBUF alone. -/
theorem checkFrame_withTxSide {r : Except Cause Header} (h : checkFrame s.mem s.cfgEndian = r) :
    checkFrame (s.withTxSide tx obuf fbuf stage).mem (s.withTxSide tx obuf fbuf stage).cfgEndian = r := h

theorem readField_commutes {t : FieldType} {e : BitVec 16} {n : Nat} {d : BitVec 64} {a : BitVec 16} :
    Commutes (State.withTxSide tx obuf fbuf stage) (readField t e n d a s)
      (readField t e n d a (s.withTxSide tx obuf fbuf stage)) :=
  .ite Iff.rfl (fun _ => .finish (s.setRxErr .bounds)) fun _ =>
    .ite Iff.rfl (fun _ => .finish (s.setRxErr .overflow)) fun _ => .finish (s.consume t e n)

theorem readScalar_commutes {t : FieldType} {e : BitVec 16} :
    Commutes (State.withTxSide tx obuf fbuf stage) (readScalar t e s)
      (readScalar t e (s.withTxSide tx obuf fbuf stage)) :=
  .ite Iff.rfl (fun _ => readField_commutes) fun _ => .finish s

theorem readPrefixed_commutes {t : FieldType} {e : BitVec 16} :
    Commutes (State.withTxSide tx obuf fbuf stage) (readPrefixed t e s)
      (readPrefixed t e (s.withTxSide tx obuf fbuf stage)) :=
  .ite Iff.rfl (fun _ => .ite Iff.rfl (fun _ => .finish (s.setRxErr .bounds)) fun _ => readField_commutes)
    fun _ => .finish s

theorem execRdBytes_commutes {e : BitVec 16} :
    Commutes (State.withTxSide tx obuf fbuf stage) (execRdBytes e s)
      (execRdBytes e (s.withTxSide tx obuf fbuf stage)) :=
  .ite Iff.rfl (fun _ => .ite Iff.rfl (fun _ => readField_commutes) fun _ => .finish (s.setRxErr .range))
    fun _ => .finish s

theorem read_commutes {i : Instr} (hi : isRead i = true) :
    Commutes (State.withTxSide tx obuf fbuf stage) (exec i s) (exec i (s.withTxSide tx obuf fbuf stage)) := by
  cases i with
  | rdByte _ | rdShort _ | rdUshort _ | rdInt _ | rdUint _ | rdLong _ | rdDouble _ => exact readScalar_commutes
  | rdString _ | rdBytesLp _ => exact readPrefixed_commutes
  | rdBytes _ => exact execRdBytes_commutes
  | _ => cases hi

theorem execFrameDecode_commutes :
    Commutes (State.withTxSide tx obuf fbuf stage) (execFrameDecode s)
      (execFrameDecode (s.withTxSide tx obuf fbuf stage)) := by
  cases hc : checkFrame s.mem s.cfgEndian with
  | ok h =>
    rw [execFrameDecode_of_ok hc, execFrameDecode_of_ok (s := s.withTxSide tx obuf fbuf stage)
      (checkFrame_withTxSide hc)]
    exact .finish (s.startDecode.openSession h)
  | error c =>
    rw [execFrameDecode_of_error hc, execFrameDecode_of_error (s := s.withTxSide tx obuf fbuf stage)
      (checkFrame_withTxSide hc)]
    exact .finish (s.startDecode.failDecode c)

theorem dispatchFound_commutes :
    Commutes (State.withTxSide tx obuf fbuf stage) (dispatchFound s)
      (dispatchFound (s.withTxSide tx obuf fbuf stage)) := by
  cases hc : checkFrame s.mem s.cfgEndian with
  | ok h =>
    rw [dispatchFound_of_ok hc, dispatchFound_of_ok (s := s.withTxSide tx obuf fbuf stage)
      (checkFrame_withTxSide hc)]
    exact .finish (s.startDecode.openSession h)
  | error c =>
    rw [dispatchFound_of_error hc, dispatchFound_of_error (s := s.withTxSide tx obuf fbuf stage)
      (checkFrame_withTxSide hc)]
    exact .finish (s.startDecode.failDecode c)

theorem execFacDispatch_commutes :
    Commutes (State.withTxSide tx obuf fbuf stage) (execFacDispatch s)
      (execFacDispatch (s.withTxSide tx obuf fbuf stage)) :=
  .ite Iff.rfl (fun _ => .finish s) fun _ =>
    .ite Iff.rfl (fun _ => dispatchFound_commutes) fun _ =>
      .finish { s with fac := lookedUp (s.mem.byte .ibuf 1) (s.entry (s.mem.byte .ibuf 1)) }

theorem rxSide_commutes {i : Instr} (hi : isRead i = true ∨ i = .frameDecode ∨ i = .facDispatch) :
    Commutes (State.withTxSide tx obuf fbuf stage) (exec i s) (exec i (s.withTxSide tx obuf fbuf stage)) := by
  obtain hr | rfl | rfl := hi
  · exact read_commutes hr
  · exact execFrameDecode_commutes
  · exact execFacDispatch_commutes

end

/-- Settles O59: the commands of a side commute with any change of the other side, and the two channels'
parts of the block are read off the state they share. -/
theorem channelsAreIndependent : Obligations.ChannelsAreIndependent := by
  refine ⟨?_, ?_⟩
  · intro s t i rx ibuf reg fac hi ht
    have hcomm := txSide_commutes (rx := rx) (ibuf := ibuf) (reg := reg) (fac := fac) (s := s) hi
    rw [ht] at hcomm
    obtain ⟨v, u, hu, htx, -, hmem, -, htx', -, hmem', -, hresp⟩ := hcomm.observed
    refine ⟨u, hu, htx'.trans htx.symm, ?_, ?_, ?_, hresp⟩ <;> rw [hmem', hmem] <;> rfl
  · intro s t i tx obuf fbuf stage hi ht
    have hcomm := rxSide_commutes (tx := tx) (obuf := obuf) (fbuf := fbuf) (stage := stage) (s := s) hi
    rw [ht] at hcomm
    obtain ⟨v, u, hu, -, hrx, -, hfac, -, hrx', -, hfac', hresp⟩ := hcomm.observed
    exact ⟨u, hu, hrx'.trans hrx.symm, hfac'.trans hfac.symm, hresp⟩

end Sys2Proof.Machine
end

section
/-! PROOFS. The memory and its byte orders (20_memory.md): which commands leave the bytes of a space alone,
where the appending commands store, the two byte orders, and the commands without a side effect or with the
same effect when run again. -/

namespace Sys2Proof.Machine

/-! ### Commands that only answer -/

/-- The result answers from the block as it was. -/
def OnlyAnswers (s : State) (r : Result) : Prop := ∃ c d a, r = .next (s.finish c false d a)

theorem OnlyAnswers.finish {s : State} {c : Cause} {d : BitVec 64} {a : BitVec 16} :
    OnlyAnswers s (.next (s.finish c false d a)) := ⟨c, d, a, rfl⟩

theorem OnlyAnswers.offPort_eq {s t : State} (h : OnlyAnswers s (.next t)) : t.offPort = s.offPort := by
  obtain ⟨c, d, a, ht⟩ := h
  cases ht
  rfl

theorem readIndexed_onlyAnswers (sp : Space) (k : BitVec 16) (s : State) : OnlyAnswers s (readIndexed sp k s) := by
  obtain ⟨b, -, hr⟩ | ⟨-, hr⟩ := readIndexed_cases sp k s <;> rw [hr] <;> exact .finish

theorem execLogRead_onlyAnswers (a : BitVec 8) (k : BitVec 16) (s : State) : OnlyAnswers s (execLogRead a k s) := by
  obtain ⟨-, hr⟩ | ⟨-, -, hr⟩ | ⟨-, r, -, hr⟩ := execLogRead_cases a k s <;> rw [hr] <;> exact .finish

theorem execRdReg_onlyAnswers (r : BitVec 8) (s : State) : OnlyAnswers s (execRdReg r s) := by
  obtain ⟨v, -, hr⟩ | ⟨-, hr⟩ := execRdReg_cases r s <;> rw [hr] <;> exact .finish

/-- Settles O28: each of the five commands only answers, and an answer writes the port alone. -/
theorem readCommandsHaveNoSideEffect : Obligations.ReadCommandsHaveNoSideEffect := by
  intro s t i hi ht
  have honly : OnlyAnswers s (exec i s) := by
    obtain rfl | ⟨r, rfl⟩ | ⟨k, rfl⟩ | ⟨k, rfl⟩ | ⟨a, k, rfl⟩ := hi
    · exact .finish
    · exact execRdReg_onlyAnswers r s
    · exact readIndexed_onlyAnswers .ibuf k s
    · exact readIndexed_onlyAnswers .fbuf k s
    · exact execLogRead_onlyAnswers a k s
  rw [ht] at honly
  exact honly.offPort_eq

/-! ### The byte orders -/

theorem encLittle_eq_map_range (w v : Nat) :
    encLittle w v = (List.range w).map fun k => BitVec.ofNat 8 (v / 256 ^ k) := by
  induction w generalizing v with
  | zero => rfl
  | succ w ih =>
    rw [encLittle, ih, List.range_succ_eq_map, List.map_cons, List.map_map, pow_zero, Nat.div_one]
    simp only [Function.comp_def, Nat.div_div_eq_div_mul, Nat.succ_eq_add_one, pow_succ']

/-- Byte `k` of a value is the value shifted down by `k` bytes. -/
theorem extractLsb'_byte (v : BitVec 64) (k : Nat) : v.extractLsb' (8 * k) 8 = BitVec.ofNat 8 (v.toNat / 256 ^ k) := by
  rw [BitVec.extractLsb', Nat.shiftRight_eq_div_pow, pow_mul]
  rfl

theorem encLittle_eq_valueBytes (v : BitVec 64) (w : Nat) : encLittle w v.toNat = valueBytes .little w v := by
  simp only [encLittle_eq_map_range, valueBytes, extractLsb'_byte]

theorem enc_eq_valueBytes (e : Endian) (v : BitVec 64) (w : Nat) : enc e v.toNat w = valueBytes e w v := by
  cases e with
  | little => exact encLittle_eq_valueBytes v w
  | big => exact congrArg List.reverse (encLittle_eq_valueBytes v w)

theorem decLittle_append (bs cs : List Byte) :
    decLittle (bs ++ cs) = decLittle bs + 256 ^ bs.length * decLittle cs := by
  induction bs with
  | nil => simp [decLittle]
  | cons b bs ih =>
    simp only [List.cons_append, decLittle, ih, List.length_cons]
    ring

theorem bytesValue_little_cons (b : Byte) (bs : List Byte) :
    bytesValue .little (b :: bs) = b.toNat + 256 * bytesValue .little bs := by
  simp only [bytesValue, List.length_cons, List.range_succ_eq_map, List.map_cons, List.map_map, List.sum_cons,
    List.getD_cons_zero, pow_zero, mul_one, ← List.sum_map_mul_left]
  simp only [Function.comp_def, List.getD_cons_succ, pow_succ, mul_assoc, mul_comm]

theorem bytesValue_big_cons (b : Byte) (bs : List Byte) :
    bytesValue .big (b :: bs) = 256 ^ bs.length * b.toNat + bytesValue .big bs := by
  simp only [bytesValue, List.length_cons, List.range_succ_eq_map, List.map_cons, List.map_map, List.sum_cons,
    List.getD_cons_zero, Nat.add_sub_cancel, Nat.sub_zero, mul_comm]
  simp only [Function.comp_def, List.getD_cons_succ, Nat.sub_add_eq, Nat.sub_right_comm, Nat.succ_eq_add_one]

theorem dec_eq_bytesValue (e : Endian) (bs : List Byte) : dec e bs = bytesValue e bs := by
  cases e with
  | little =>
    induction bs with
    | nil => rfl
    | cons b bs ih => rw [bytesValue_little_cons, ← ih, dec, decLittle, dec]
  | big =>
    induction bs with
    | nil => rfl
    | cons b bs ih =>
      rw [bytesValue_big_cons, ← ih, dec, List.reverse_cons, decLittle_append, List.length_reverse, dec,
        decLittle, decLittle, mul_zero, Nat.add_zero, Nat.add_comm]

theorem decLittle_encLittle {w v : Nat} (h : v < 256 ^ w) : decLittle (encLittle w v) = v := by
  induction w generalizing v with
  | zero => exact (Nat.lt_one_iff.mp h).symm
  | succ w ih =>
    have hq : v / 256 < 256 ^ w := Nat.div_lt_of_lt_mul (by rwa [← pow_succ'])
    rw [encLittle, decLittle, ih hq, BitVec.toNat_ofNat]
    exact Nat.mod_add_div v 256

theorem dec_enc (e : Endian) {v w : Nat} (h : v < 256 ^ w) : dec e (enc e v w) = v := by
  cases e with
  | little => exact decLittle_encLittle h
  | big => simpa only [dec, enc, List.reverse_reverse] using decLittle_encLittle h

/-- Settles O41: both orders reduce to the little-endian one, which goes byte by byte. -/
theorem byteOrderLaws : Obligations.ByteOrderLaws :=
  ⟨fun e v w _ => enc_eq_valueBytes e v w, dec_eq_bytesValue, fun e _ _ => dec_enc e⟩

/-! ### Decoding again -/

/-- `i` run on `t` uses up a move and changes nothing else: it answers with the response that stands there. -/
def Repeats (i : Instr) (t : State) : Prop := exec i t = .next { t with pending := t.pending.tail }

theorem execFacDispatch_of_short {s : State} (hl : s.mem.len .ibuf < 8) : execFacDispatch s = s.raise .fmtShort :=
  if_pos hl

theorem execFacDispatch_of_unknown {s : State} (hl : 8 ≤ s.mem.len .ibuf)
    (hv : (s.entry (s.mem.byte .ibuf 1)).valid = false) :
    execFacDispatch s = ({ s with fac := ⟨true, s.mem.byte .ibuf 1, false, 0⟩ } : State).respondNoHandler := by
  simp [execFacDispatch, Config.hdrSize, Nat.not_lt.mpr hl, hv, lookedUp]

theorem execFacDispatch_of_known {s : State} (hl : 8 ≤ s.mem.len .ibuf)
    (hv : (s.entry (s.mem.byte .ibuf 1)).valid = true) : execFacDispatch s = dispatchFound s.foundHandler := by
  simp [execFacDispatch, Config.hdrSize, Nat.not_lt.mpr hl, hv, lookedUp, State.foundHandler]

theorem execFrameDecode_repeats {s t : State} (h : execFrameDecode s = .next t) : Repeats .frameDecode t := by
  obtain ⟨hd, hc, hr⟩ | ⟨c, hc, hr⟩ := execFrameDecode_cases s <;> rw [hr] at h <;> cases h
  · exact execFrameDecode_of_ok hc
  · exact execFrameDecode_of_error hc

theorem dispatchFound_repeats {s t : State} (hl : 8 ≤ s.mem.len .ibuf)
    (hv : (s.entry (s.mem.byte .ibuf 1)).valid = true) (h : dispatchFound s.foundHandler = .next t) :
    Repeats .facDispatch t := by
  obtain ⟨hd, hc, hr⟩ | ⟨c, hc, hr⟩ := dispatchFound_cases s.foundHandler <;> rw [hr] at h <;> cases h
  · refine (execFacDispatch_of_known ?_ ?_).trans (dispatchFound_of_ok (h := hd) ?_)
    exacts [hl, hv, hc]
  · refine (execFacDispatch_of_known ?_ ?_).trans (dispatchFound_of_error (c := c) ?_)
    exacts [hl, hv, hc]

theorem execFacDispatch_repeats {s t : State} (h : execFacDispatch s = .next t) : Repeats .facDispatch t := by
  obtain ⟨hl, hr⟩ | ⟨hl, hv, hr⟩ | ⟨hl, hv, hr⟩ := execFacDispatch_cases s <;> rw [hr] at h
  · cases h
    exact execFacDispatch_of_short hl
  · cases h
    exact execFacDispatch_of_unknown hl hv
  · exact dispatchFound_repeats hl hv h

/-- Settles O45: the two commands read IBUF, CFG.ENDIAN and the registry, which they do not write, so a
second run takes the branch of the first and writes what stands there. -/
theorem decodingAgainChangesNothing : Obligations.DecodingAgainChangesNothing := by
  rintro s t i (rfl | rfl) h
  · exact execFrameDecode_repeats h
  · exact execFacDispatch_repeats h

/-! ### Who writes a space -/

theorem writesSpace_sreset (sp : Space) : writesSpace .sreset sp = true := by cases sp <;> rfl

theorem writesSpace_obuf_of_isWrite {i : Instr} (h : isWrite i = true) : writesSpace i .obuf = true := by
  cases i with
  | txBegin | sreset => rfl
  | _ => exact h

/-- A command that is no writer of a space leaves its contents alone. -/
theorem Effect.get_eq {s u : State} {i : Instr} {c : Cause} {nh : Bool} (h : Effect s i c nh u) {sp : Space}
    (hw : writesSpace i sp = false) : u.mem.get sp = s.mem.get sp := by
  have other {sp' : Space} (hw' : writesSpace i sp' = true) : sp ≠ sp' := by
    rintro rfl
    simp [hw] at hw'
  cases h with
  | reset => exact absurd rfl (other (writesSpace_sreset sp))
  | stgClear | inClear | txBegin | encode _ => exact Memory.get_set_other _ _ (other rfl)
  | stgPush _ _ | inPush _ _ => exact Memory.get_push_other _ _ (other rfl)
  | append write _ _ _ => exact Memory.get_push_other _ _ (other (writesSpace_obuf_of_isWrite write))
  | _ => rfl

/-- Settles O51: a space that keeps its contents reads the same at every address. -/
theorem bytesChangeOnlyByTheirWriters : Obligations.BytesChangeOnlyByTheirWriters := by
  intro s t i sp h hw k
  obtain ⟨u, c, nh, d, a, he, rfl⟩ := effect_of_exec h
  exact congrArg (·[k]?) (he.get_eq hw)

/-! ### Where an append stores -/

/-- An append changes no byte outside the addresses it stores at. -/
theorem Memory.byte?_push_outside (m : Memory) {sp sp' : Space} {bs : List Byte} {k : Nat}
    (h : ¬ (sp' = sp ∧ m.len sp ≤ k ∧ k < m.len sp + bs.length)) :
    (m.push sp bs).byte? sp' k = m.byte? sp' k := by
  by_cases hsp : sp' = sp
  · subst hsp
    by_cases hk : k < m.len sp'
    · exact m.byte?_push_below sp' bs hk
    · have above : m.len sp' + bs.length ≤ k := by simpa [hk, Nat.le_of_not_lt hk] using h
      have hold : m.byte? sp' k = none := List.getElem?_eq_none (Nat.le_of_not_lt hk)
      have hnew : (m.push sp' bs).byte? sp' k = none :=
        List.getElem?_eq_none ((m.len_push_same sp' bs).trans_le above)
      rw [hnew, hold]
  · exact m.byte?_set_other _ hsp k

/-- The result either reports a failure and leaves the memory, or reports OK and has appended `n` bytes. -/
inductive Appends (s : State) (sp : Space) (n : Nat) : Result → Prop
  | fail {u : State} {c : Cause} (kept : u.mem = s.mem) (fails : c ≠ .ok) :
      Appends s sp n (.next (u.finish c false 0 0))
  | store {u : State} {bs : List Byte} (stored : u.mem = s.mem.push sp bs) (size : bs.length = n) :
      Appends s sp n (.next (u.finish .ok false 0 0))

theorem Appends.byte?_eq {s t : State} {sp sp' : Space} {n k : Nat} (h : Appends s sp n (.next t))
    (hk : ¬ (sp' = sp ∧ s.mem.len sp ≤ k ∧ k < s.mem.len sp + n)) : t.mem.byte? sp' k = s.mem.byte? sp' k := by
  cases h with
  | fail kept _ => rw [State.finish_mem, kept]
  | store stored size =>
    subst size
    rw [State.finish_mem, stored, s.mem.byte?_push_outside hk]

theorem Appends.len_eq {s t : State} {sp : Space} {n : Nat} {r : Response} (h : Appends s sp n (.next t))
    (hr : t.response = some r) (hok : r.cause = 0x00#8) : t.mem.len sp = s.mem.len sp + n := by
  cases h with
  | fail _ fails =>
    cases hr
    rw [Response.cause_statusWord] at hok
    exact absurd hok (code_ne_zero fails)
  | store stored size => rw [State.finish_mem, stored, Memory.len_push_same, size]

theorem writeField_appends (t : FieldType) (e : BitVec 16) (bs : List Byte) (s : State) :
    Appends s .obuf bs.length (writeField t e bs s) := by
  obtain ⟨-, hr⟩ | ⟨-, -, hr⟩ := writeField_cases t e bs s <;> rw [hr]
  · exact .fail rfl nofun
  · exact .store rfl rfl

theorem writeScalar_appends (t : FieldType) (e : BitVec 16) (s : State) {n : Nat} (hn : scalarWidth t = n) :
    Appends s .obuf n (writeScalar t e s) := by
  subst hn
  obtain ⟨-, hr⟩ | ⟨-, -, hr⟩ | ⟨-, -, hr⟩ := writeScalar_cases t e s <;> rw [hr]
  · exact .fail rfl nofun
  · exact .fail rfl nofun
  · simpa only [enc_length] using writeField_appends t e (enc s.tx.endian s.din.toNat (scalarWidth t)) s

theorem writeBytes_appends (t : FieldType) (e : BitVec 16) (bs : List Byte) (s : State) {n : Nat}
    (hn : bs.length = n) : Appends s .obuf n (writeBytes t e bs s) := by
  subst hn
  obtain ⟨-, hr⟩ | ⟨-, hr⟩ := writeBytes_cases t e bs s <;> rw [hr]
  · exact .fail rfl nofun
  · exact writeField_appends t e bs s

theorem execStgPush_appends (b : Byte) (s : State) : Appends s .stage 1 (execStgPush b s) := by
  unfold execStgPush
  split
  · exact .fail rfl nofun
  · exact .store rfl rfl

theorem execInPush_appends (b : Byte) (s : State) : Appends s .ibuf 1 (execInPush b s) := by
  unfold execInPush
  split
  · exact .fail rfl nofun
  · exact .store rfl rfl

/-- The span of an appending command starts at the space's length, and the command appends that many bytes. -/
theorem appends_of_storedSpan {i : Instr} {s : State} {sp : Space} {a n : Nat}
    (h : storedSpan i s = some (sp, a, n)) : a = s.mem.len sp ∧ Appends s sp n (exec i s) := by
  cases i with
  | wrByte e | wrShort e | wrUshort e | wrInt e | wrUint e | wrLong e | wrDouble e =>
    cases h
    exact ⟨rfl, writeScalar_appends _ e s rfl⟩
  | wrString e | wrBytesLp e =>
    cases h
    exact ⟨rfl, writeBytes_appends _ e _ s (lengthPrefixed_length ..)⟩
  | wrBytes e =>
    cases h
    exact ⟨rfl, writeBytes_appends _ e _ s rfl⟩
  | inPush b =>
    cases h
    exact ⟨rfl, execInPush_appends b s⟩
  | stgPush b =>
    cases h
    exact ⟨rfl, execStgPush_appends b s⟩
  | _ => cases h

/-- Settles O52: an appending command fails and leaves the memory, or pushes its bytes at the length. -/
theorem appendsStoreAtTheLength : Obligations.AppendsStoreAtTheLength := by
  intro s t i sp a n ht hspan
  obtain ⟨rfl, happ⟩ := appends_of_storedSpan hspan
  rw [ht] at happ
  exact ⟨fun _ _ => happ.byte?_eq, fun _ => happ.len_eq⟩

end Sys2Proof.Machine
end

section
/-! PROOFS. The encoding (30_encoding.md sections 1 and 2): a word is its three fields; `decode` answers with
the row of R93 that selects the word; the word of what a row builds is the row's OP with the operands back in
their fields. The round trips and the mask and match of R94 follow from these three. -/

namespace Sys2Proof

/-! ### The fields of a word -/

theorem getLsbD_commandWord (op a : BitVec 8) (b : BitVec 16) {k : Nat} (hk : k < 32) :
    (commandWord op a b).getLsbD k =
      (decide (16 ≤ k) && b.getLsbD (k - 16) || decide (8 ≤ k) && a.getLsbD (k - 8) || op.getLsbD k) := by
  simp only [commandWord, BitVec.getLsbD_or, Machine.getLsbD_place, hk, Nat.zero_le, Nat.sub_zero, decide_true,
    Bool.true_and]

theorem wordA_commandWord (op a : BitVec 8) (b : BitVec 16) : wordA (commandWord op a b) = a := by
  apply BitVec.eq_of_getLsbD_eq
  intro k hk
  have belowB : ¬ 16 ≤ 8 + k := by omega
  rw [wordA, BitVec.getLsbD_extractLsb', getLsbD_commandWord _ _ _ (by omega)]
  simp [hk, belowB]

theorem wordB_commandWord (op a : BitVec 8) (b : BitVec 16) : wordB (commandWord op a b) = b := by
  apply BitVec.eq_of_getLsbD_eq
  intro k hk
  have aboveOp : op.getLsbD (16 + k) = false := BitVec.getLsbD_of_ge _ _ (by omega)
  have aboveA : a.getLsbD (16 + k - 8) = false := BitVec.getLsbD_of_ge _ _ (by omega)
  rw [wordB, BitVec.getLsbD_extractLsb', getLsbD_commandWord _ _ _ (by omega)]
  simp [hk, aboveOp, aboveA]

/-- The three fields cover the word (R90). -/
theorem word_ext {v w : BitVec 32} (hop : wordOp v = wordOp w) (ha : wordA v = wordA w)
    (hb : wordB v = wordB w) : v = w := by
  apply BitVec.eq_of_getLsbD_eq
  intro k hk
  by_cases h8 : k < 8
  · simpa [wordOp, h8] using congrArg (·.getLsbD k) hop
  by_cases h16 : k < 16
  · have inA : k - 8 < 8 := by omega
    have back : 8 + (k - 8) = k := by omega
    simpa [wordA, inA, back] using congrArg (·.getLsbD (k - 8)) ha
  · have inB : k - 16 < 16 := by omega
    have back : 16 + (k - 16) = k := by omega
    simpa [wordB, inB, back] using congrArg (·.getLsbD (k - 16)) hb

theorem commandWord_eq_iff {op a : BitVec 8} {b : BitVec 16} {w : BitVec 32} :
    commandWord op a b = w ↔ op = wordOp w ∧ a = wordA w ∧ b = wordB w := by
  constructor
  · rintro rfl
    exact ⟨(wordOp_commandWord ..).symm, (wordA_commandWord ..).symm, (wordB_commandWord ..).symm⟩
  · rintro ⟨rfl, rfl, rfl⟩
    exact word_ext (wordOp_commandWord ..) (wordA_commandWord ..) (wordB_commandWord ..)

/-- A mask acts on each field by itself. -/
theorem and_commandWord (w : BitVec 32) (op a : BitVec 8) (b : BitVec 16) :
    w &&& commandWord op a b = commandWord (wordOp w &&& op) (wordA w &&& a) (wordB w &&& b) := by
  have hop (v : BitVec 32) : wordOp (w &&& v) = wordOp w &&& wordOp v := BitVec.extractLsb'_and
  have ha (v : BitVec 32) : wordA (w &&& v) = wordA w &&& wordA v := BitVec.extractLsb'_and
  have hb (v : BitVec 32) : wordB (w &&& v) = wordB w &&& wordB v := BitVec.extractLsb'_and
  rw [eq_comm, commandWord_eq_iff, hop, ha, hb, wordOp_commandWord, wordA_commandWord, wordB_commandWord]
  exact ⟨rfl, rfl, rfl⟩

/-! ### The row that selects a word -/

/-- The operands of a row: its must-be-zero bits are zero (R92). -/
def OpRow.Admits (r : OpRow) (a : BitVec 8) (b : BitVec 16) : Prop := a &&& r.aZero = 0#8 ∧ b &&& r.bZero = 0#16

/-- The row selects the word: its OP, and operands it admits (R92). -/
def OpRow.Selects (r : OpRow) (w : BitVec 32) : Prop := r.op = wordOp w ∧ r.Admits (wordA w) (wordB w)

theorem opRows_op_nodup : (opRows.map OpRow.op).Nodup := by decide

theorem opRow_eq_of_op_eq {r q : OpRow} (hr : r ∈ opRows) (hq : q ∈ opRows) (h : r.op = q.op) : r = q :=
  List.inj_on_of_nodup_map opRows_op_nodup hr hq h

theorem find?_opRows_eq_some_iff {op : BitVec 8} {r : OpRow} :
    opRows.find? (fun q => q.op == op) = some r ↔ r ∈ opRows ∧ r.op = op := by
  constructor
  · intro h
    exact ⟨List.mem_of_find?_eq_some h, by simpa using List.find?_some h⟩
  · rintro ⟨hr, rfl⟩
    obtain ⟨q, hq⟩ : ∃ q, opRows.find? (fun q => q.op == r.op) = some q :=
      Option.isSome_iff_exists.1 (List.find?_isSome.2 ⟨r, hr, beq_self_eq_true _⟩)
    have hop : q.op = r.op := by simpa using List.find?_some hq
    rw [hq, opRow_eq_of_op_eq (List.mem_of_find?_eq_some hq) hr hop]

/-- All that `decode` can answer with: the command of the row that selects the word. -/
theorem decode_eq_ok_iff {w : BitVec 32} {i : Instr} :
    decode w = .ok i ↔ ∃ r ∈ opRows, r.Selects w ∧ r.build (wordA w) (wordB w) = i := by
  constructor
  · intro h
    unfold decode at h
    split at h
    · cases h
    next r hfind =>
      obtain ⟨hr, hop⟩ := find?_opRows_eq_some_iff.1 hfind
      split at h
      next hadmits => exact ⟨r, hr, ⟨hop, hadmits⟩, Except.ok.inj h⟩
      · cases h
  · rintro ⟨r, hr, ⟨hop, hadmits⟩, rfl⟩
    unfold decode
    rw [find?_opRows_eq_some_iff.2 ⟨hr, hop⟩]
    exact if_pos hadmits

/-! ### The word of what a row builds -/

/-- What a row builds from operands it admits is well formed, and its word holds the row's OP and the
operands. -/
def OpRow.Encodes (r : OpRow) : Prop :=
  ∀ a b, r.Admits a b → (r.build a b).wellFormed = true ∧ encode (r.build a b) = commandWord r.op a b

/-- A command without operands: both fields must be zero. -/
theorem OpRow.encodes_bare {op : BitVec 8} {m : String} {i : Instr} (hw : i.wellFormed = true)
    (he : encode i = commandWord op 0#8 0#16) : OpRow.Encodes ⟨op, m, 0xFF#8, 0xFFFF#16, fun _ _ => i⟩ := by
  rintro a b ⟨ha, hb⟩
  obtain rfl : a = 0#8 := (BitVec.and_allOnes (x := a)).symm.trans ha
  obtain rfl : b = 0#16 := (BitVec.and_allOnes (x := b)).symm.trans hb
  exact ⟨hw, he⟩

/-- A command with its operand in A: B must be zero. -/
theorem OpRow.encodes_onA {op za : BitVec 8} {m : String} {f : BitVec 8 → Instr}
    (h : ∀ a, a &&& za = 0#8 → (f a).wellFormed = true ∧ encode (f a) = commandWord op a 0#16) :
    OpRow.Encodes ⟨op, m, za, 0xFFFF#16, fun a _ => f a⟩ := by
  rintro a b ⟨ha, hb⟩
  obtain rfl : b = 0#16 := (BitVec.and_allOnes (x := b)).symm.trans hb
  exact h a ha

/-- A command with its operand in B: A must be zero. -/
theorem OpRow.encodes_onB {op : BitVec 8} {m : String} {f : BitVec 16 → Instr}
    (h : ∀ b, (f b).wellFormed = true ∧ encode (f b) = commandWord op 0#8 b) :
    OpRow.Encodes ⟨op, m, 0xFF#8, 0x0000#16, fun _ b => f b⟩ := by
  rintro a b ⟨ha, -⟩
  obtain rfl : a = 0#8 := (BitVec.and_allOnes (x := a)).symm.trans ha
  exact h b

theorem selectorOk_iff {a : BitVec 8} : selectorOk a = true ↔ a &&& 0xFE#8 = 0#8 := beq_iff_eq

section
open OpRow

theorem controlRows_encode : ∀ r ∈ controlRows, r.Encodes := by
  simp only [controlRows, List.forall_mem_cons]
  exact ⟨encodes_bare rfl rfl, encodes_onA fun _ ha => ⟨selectorOk_iff.2 ha, rfl⟩,
    encodes_onA fun _ _ => ⟨rfl, rfl⟩, encodes_onB fun _ => ⟨rfl, rfl⟩, encodes_onA fun _ _ => ⟨rfl, rfl⟩,
    encodes_onA fun _ _ => ⟨rfl, rfl⟩, encodes_bare rfl rfl, List.forall_mem_nil _⟩

theorem bufferRows_encode : ∀ r ∈ bufferRows, r.Encodes := by
  simp only [bufferRows, List.forall_mem_cons]
  exact ⟨encodes_bare rfl rfl, encodes_onA fun _ _ => ⟨rfl, rfl⟩, encodes_bare rfl rfl,
    encodes_onA fun _ _ => ⟨rfl, rfl⟩, encodes_onB fun _ => ⟨rfl, rfl⟩, encodes_onB fun _ => ⟨rfl, rfl⟩,
    fun _ _ ⟨ha, _⟩ => ⟨selectorOk_iff.2 ha, rfl⟩, List.forall_mem_nil _⟩

/-- The ten field writes take their element in B; TX_BEGIN and FRAME_ENCODE take nothing. -/
theorem coderRows_encode : ∀ r ∈ coderRows, r.Encodes := by
  simp only [coderRows, List.forall_mem_cons]
  refine ⟨?_, ?_, ?_, ?_, ?_, ?_, ?_, ?_, ?_, ?_, encodes_bare rfl rfl, encodes_bare rfl rfl,
    List.forall_mem_nil _⟩
  all_goals exact encodes_onB fun _ => ⟨rfl, rfl⟩

/-- The ten field reads take their element in B; FAC_REGISTER takes A and B; FRAME_DECODE and FAC_DISPATCH
take nothing. -/
theorem decoderRows_encode : ∀ r ∈ decoderRows, r.Encodes := by
  simp only [decoderRows, List.forall_mem_cons]
  refine ⟨?_, ?_, ?_, ?_, ?_, ?_, ?_, ?_, ?_, ?_, encodes_bare rfl rfl, fun _ _ _ => ⟨rfl, rfl⟩,
    encodes_bare rfl rfl, List.forall_mem_nil _⟩
  all_goals exact encodes_onB fun _ => ⟨rfl, rfl⟩

end

theorem opRows_encode : ∀ r ∈ opRows, r.Encodes := by
  simp only [opRows, List.forall_mem_append]
  exact ⟨⟨⟨controlRows_encode, bufferRows_encode⟩, coderRows_encode⟩, decoderRows_encode⟩

/-! ### The row that builds a command -/

/-- Some row builds the command from operands it admits. -/
def Instr.HasRow (i : Instr) : Prop := ∃ r ∈ opRows, ∃ a b, r.Admits a b ∧ r.build a b = i

theorem Instr.hasRow_of_find? {i : Instr} {r : OpRow} {a : BitVec 8} {b : BitVec 16}
    (hfind : opRows.find? (fun q => q.op == opcodeOf i) = some r) (hbuild : r.build a b = i)
    (ha : a &&& r.aZero = 0#8) (hb : b &&& r.bZero = 0#16) : i.HasRow :=
  ⟨r, List.mem_of_find?_eq_some hfind, a, b, ⟨ha, hb⟩, hbuild⟩

/-- The row is that of the command's OP; the operands go where its format puts them, zero elsewhere. -/
theorem Instr.hasRow_of_wellFormed {i : Instr} (hw : i.wellFormed = true) : i.HasRow := by
  cases i with
  | nop | sreset | stgClear | inClear | txBegin | frameEncode | frameDecode | facDispatch =>
    exact hasRow_of_find? (a := 0#8) (b := 0#16) rfl rfl BitVec.zero_and BitVec.zero_and
  | setEndian a => exact hasRow_of_find? (b := 0#16) rfl rfl (selectorOk_iff.1 hw) BitVec.zero_and
  | setType x | setErrc x | rdReg x | stgPush x | inPush x =>
    exact hasRow_of_find? (a := x) (b := 0#16) rfl rfl BitVec.and_zero BitVec.zero_and
  | setSeq x | inRead x | fbRead x | wrByte x | wrShort x | wrUshort x | wrInt x | wrUint x | wrLong x
  | wrDouble x | wrString x | wrBytes x | wrBytesLp x | rdByte x | rdShort x | rdUshort x | rdInt x | rdUint x
  | rdLong x | rdDouble x | rdString x | rdBytes x | rdBytesLp x =>
    exact hasRow_of_find? (a := 0#8) (b := x) rfl rfl BitVec.zero_and BitVec.and_zero
  | logRead a k => exact hasRow_of_find? rfl rfl (selectorOk_iff.1 hw) BitVec.and_zero
  | facRegister t n => exact hasRow_of_find? rfl rfl BitVec.and_zero BitVec.and_zero

/-! ### The round trips -/

/-- Settles O1: the row that builds the command selects its word, and finds the operands in their fields. -/
theorem decodeEncodeRoundTrip : Obligations.DecodeEncodeRoundTrip := by
  intro i hw
  obtain ⟨r, hr, a, b, hadmits, rfl⟩ := Instr.hasRow_of_wellFormed hw
  obtain ⟨-, hword⟩ := opRows_encode r hr a b hadmits
  obtain ⟨hop, ha, hb⟩ := commandWord_eq_iff.1 hword.symm
  rw [decode_eq_ok_iff, ← ha, ← hb]
  exact ⟨r, hr, ⟨hop, ha ▸ hb ▸ hadmits⟩, rfl⟩

/-- Settles O2: the row that selects the word encodes what it builds back into the same three fields. -/
theorem encodeDecodeRoundTrip : Obligations.EncodeDecodeRoundTrip := by
  intro w i h
  obtain ⟨r, hr, ⟨hop, hadmits⟩, rfl⟩ := decode_eq_ok_iff.1 h
  obtain ⟨hw, hword⟩ := opRows_encode r hr _ _ hadmits
  exact ⟨hw, hword.trans (commandWord_eq_iff.2 ⟨hop, rfl, rfl⟩)⟩

/-- Settles O3: the eight legal words are the encodings of their commands; the three illegal ones are
evaluated. -/
theorem sampleWordsDecode : Obligations.SampleWordsDecode :=
  ⟨decodeEncodeRoundTrip (.setEndian 1) rfl, decodeEncodeRoundTrip (.setSeq 5) rfl,
    decodeEncodeRoundTrip (.facRegister 0x10 7) rfl, decodeEncodeRoundTrip (.inRead 2499) rfl,
    decodeEncodeRoundTrip (.logRead 1 2) rfl, decodeEncodeRoundTrip (.wrShort 1) rfl,
    decodeEncodeRoundTrip (.rdShort 2) rfl, decodeEncodeRoundTrip .frameEncode rfl, rfl, rfl, rfl⟩

/-! ### The mask and the match of a row -/

/-- The mask and the match of R94 as a row gives them: OP and the must-be-zero bits, and OP alone. -/
def OpRow.maskMatch (r : OpRow) : BitVec 32 × BitVec 32 :=
  (commandWord 0xFF#8 r.aZero r.bZero, commandWord r.op 0#8 0#16)

theorem OpRow.selects_iff (r : OpRow) (w : BitVec 32) : r.Selects w ↔ w &&& r.maskMatch.1 = r.maskMatch.2 := by
  have hop : wordOp w &&& 0xFF#8 = wordOp w := BitVec.and_allOnes
  rw [maskMatch, and_commandWord, hop, commandWord_eq_iff, wordOp_commandWord, wordA_commandWord,
    wordB_commandWord, Selects, Admits, eq_comm]

/-- The listed pairs are those of the rows, in another order. -/
theorem maskMatch_perm_opcodeMatches : (opRows.map OpRow.maskMatch).Perm Machine.opcodeMatches := by decide

theorem mem_opcodeMatches_iff {p : BitVec 32 × BitVec 32} :
    p ∈ Machine.opcodeMatches ↔ ∃ r ∈ opRows, r.maskMatch = p := by
  rw [← maskMatch_perm_opcodeMatches.mem_iff, List.mem_map]

/-- Settles O5: a pair selects the words its row selects, and no two rows have one OP. -/
theorem legalWordsAreTheOpcodeMap : Obligations.LegalWordsAreTheOpcodeMap := by
  refine ⟨rfl, fun w => ⟨⟨?_, ?_⟩, ?_⟩⟩
  · rintro ⟨i, h⟩
    obtain ⟨r, hr, hsel, -⟩ := decode_eq_ok_iff.1 h
    exact ⟨r.maskMatch, mem_opcodeMatches_iff.2 ⟨r, hr, rfl⟩, (r.selects_iff w).1 hsel⟩
  · rintro ⟨p, hp, hsel⟩
    obtain ⟨r, hr, rfl⟩ := mem_opcodeMatches_iff.1 hp
    exact ⟨_, decode_eq_ok_iff.2 ⟨r, hr, (r.selects_iff w).2 hsel, rfl⟩⟩
  · intro p hp q hq hpw hqw
    obtain ⟨r, hr, rfl⟩ := mem_opcodeMatches_iff.1 hp
    obtain ⟨r', hr', rfl⟩ := mem_opcodeMatches_iff.1 hq
    obtain ⟨hop, -⟩ := (r.selects_iff w).2 hpw
    obtain ⟨hop', -⟩ := (r'.selects_iff w).2 hqw
    rw [opRow_eq_of_op_eq hr hr' (hop.trans hop'.symm)]

end Sys2Proof
end

section
/-! PROOFS. `HasEncoding` for every row of the opcode map (30_encoding.md R92, R94, R95). -/

namespace Sys2Proof

/-- A word with a row's OP that the row does not select is no command (R95). -/
theorem OpRow.decode_eq_error {r : OpRow} (hr : r ∈ opRows) {w : BitVec 32} (hop : wordOp w = r.op)
    (hsel : ¬ r.Selects w) : ∃ e, decode w = .error e := by
  cases hd : decode w with
  | error e => exact ⟨e, rfl⟩
  | ok i =>
    obtain ⟨q, hq, hqw, -⟩ := decode_eq_ok_iff.1 hd
    rw [opRow_eq_of_op_eq hq hr (hqw.1.trans hop)] at hqw
    exact absurd hqw hsel

theorem Machine.step_of_decode_error {s : Machine.State} {c : Machine.Command} {rest : List Machine.HostMove}
    {e : DecodeError} (hp : s.pending = .command c :: rest) (hd : decode c.cmd = .error e) :
    Machine.step s = s.raise .illegal := by
  have hpres : s.presented = .illegalWord := by simp only [Machine.State.presented, hp, hd]
  simp only [Machine.step, hpres, Machine.illegalCommand]

/-- The mask and the match of a row select the words of its command, and no other word with its OP is legal. -/
theorem OpRow.hasEncoding {r : OpRow} (hr : r ∈ opRows) :
    Machine.HasEncoding r.maskMatch.1 r.maskMatch.2 r.build := by
  refine ⟨fun w hw => decode_eq_ok_iff.2 ⟨r, hr, (r.selects_iff w).2 hw, rfl⟩, ?_⟩
  intro s c rest hp hop hne
  have hrop : wordOp c.cmd = r.op := hop.trans (wordOp_commandWord ..)
  obtain ⟨e, hd⟩ := OpRow.decode_eq_error hr hrop (mt (r.selects_iff c.cmd).1 hne)
  exact Machine.step_of_decode_error hp hd

/-- The row of an OP, looked up. -/
theorem OpRow.hasEncoding_of_find? {op : BitVec 8} {r : OpRow} (h : opRows.find? (fun q => q.op == op) = some r) :
    Machine.HasEncoding r.maskMatch.1 r.maskMatch.2 r.build := OpRow.hasEncoding (List.mem_of_find?_eq_some h)

end Sys2Proof
end

section
/-! PROOFS. The XOR checksum (40_frame_codec.md R130): adding a byte, joining, reordering, and what a change of
one byte does to it. -/

namespace Sys2Proof.Machine

theorem xor8_eq_foldr (bs : List Byte) : xor8 bs = bs.foldr (fun b x => b ^^^ x) 0x00#8 := List.foldl_eq_foldr

theorem xor8_cons (b : Byte) (bs : List Byte) : xor8 (b :: bs) = b ^^^ xor8 bs := by
  simp only [xor8_eq_foldr, List.foldr_cons]

theorem xor8_append (a b : List Byte) : xor8 (a ++ b) = xor8 a ^^^ xor8 b := by
  induction a with
  | nil => exact BitVec.zero_xor.symm
  | cons x a ih => rw [List.cons_append, xor8_cons, xor8_cons, ih, BitVec.xor_assoc]

theorem xor8_perm {a b : List Byte} (h : a.Perm b) : xor8 a = xor8 b := by
  induction h with
  | nil => rfl
  | cons x _ ih => rw [xor8_cons, xor8_cons, ih]
  | swap x y l => simp only [xor8_cons, ← BitVec.xor_assoc, BitVec.xor_comm x y]
  | trans _ _ ih₁ ih₂ => exact ih₁.trans ih₂

/-- A difference in one byte is the same difference of the checksum. -/
theorem xor8_modify {bs : List Byte} {j : Nat} (d : Byte) (hj : j < bs.length) :
    xor8 (bs.modify j fun b => b ^^^ d) = xor8 bs ^^^ d := by
  induction bs generalizing j with
  | nil => cases hj
  | cons b bs ih =>
    cases j with
    | zero => simp only [List.modify_zero_cons, xor8_cons, BitVec.xor_assoc, BitVec.xor_comm d]
    | succ j => rw [List.modify_succ_cons, xor8_cons, xor8_cons, ih (Nat.lt_of_succ_lt_succ hj), BitVec.xor_assoc]

/-- Settles O40: by induction on the bytes, along `xor8_cons`. -/
theorem xor8Laws : Obligations.Xor8Laws := by
  refine ⟨xor8_nil, xor8_cons, xor8_append, fun _ _ => xor8_perm, fun bs => ?_, fun _ _ _ => xor8_modify _⟩
  rw [xor8_append, xor8_singleton, BitVec.xor_self]

theorem xor_ne_self {x d : Byte} (hd : d ≠ 0x00#8) : x ^^^ d ≠ x :=
  fun h => hd ((BitVec.xor_right_inj x).1 (h.trans BitVec.xor_zero.symm))

/-- Another value of one byte gives another checksum. -/
theorem xor8_set_ne {bs : List Byte} {j : Nat} {b : Byte} (hj : j < bs.length) (hb : b ≠ bs[j]) :
    xor8 (bs.set j b) ≠ xor8 bs := by
  have hset : bs.set j b = bs.modify j fun x => x ^^^ (bs[j] ^^^ b) := by
    rw [List.modify_eq_set_get _ hj, List.get_eq_getElem, ← BitVec.xor_assoc, BitVec.xor_self, BitVec.zero_xor]
  rw [hset, xor8_modify _ hj]
  exact xor_ne_self (mt BitVec.xor_eq_zero_iff.1 hb.symm)

end Sys2Proof.Machine
end

section
/-! PROOFS. FRAME_DECODE (40_frame_codec.md R132, R133, R135): its validator reports `State.frameFault`; an
accepted frame is accepted whatever stands after it; and another value of any byte of it is found. -/

namespace Sys2Proof.Machine

/-! ### Reading IBUF -/

theorem Memory.read_succ (m : Memory) (sp : Space) (a n : Nat) :
    m.read sp a (n + 1) = m.byte sp a :: m.read sp (a + 1) n := by
  have hat : ((m.get sp).drop a)[0]? = m.byte? sp a := by rw [List.getElem?_drop, byte?, Nat.add_zero]
  have hnext : ((m.get sp).drop a).drop 1 = (m.get sp).drop (a + 1) := List.drop_drop
  rw [byte, read, read, ← hat, ← hnext]
  cases (m.get sp).drop a <;> rfl

theorem Memory.read_eq_map (m : Memory) (sp : Space) (a n : Nat) :
    m.read sp a n = (List.range n).map fun k => m.byte sp (a + k) := by
  induction n generalizing a with
  | zero => rfl
  | succ n ih =>
    rw [read_succ, ih, List.range_succ_eq_map, List.map_cons, List.map_map]
    simp only [Function.comp_def, Nat.succ_eq_add_one, Nat.add_assoc, Nat.add_comm 1, Nat.add_zero]

theorem State.inputXor_eq (s : State) (a n : Nat) : s.inputXor a n = xor8 (s.mem.read .ibuf a n) := by
  rw [xor8_eq_foldr, Memory.read_eq_map, State.inputXor]

theorem bytesValue_pair (e : Endian) (m : Memory) (sp : Space) (a : Nat) :
    bytesValue e [m.byte sp a, m.byte sp (a + 1)] = dec e (m.read sp a 2) := by
  rw [dec_eq_bytesValue, Memory.read_succ, Memory.read_succ]
  rfl

theorem State.declaredSize_eq (s : State) : s.declaredSize = dec s.cfgEndian (s.mem.read .ibuf 5 2) :=
  bytesValue_pair ..

/-! ### The verdict of FRAME_DECODE -/

/-- The header FRAME_DECODE gives back for an accepted frame (10_state.md R31), as `checkFrame_eq` says. -/
def State.acceptedHeader (s : State) : Header where
  typeTag := s.acceptedRx.typeTag
  seq := s.acceptedRx.seq
  errc := s.acceptedRx.errc
  dsize := s.declaredSize
  hck := s.acceptedRx.hck
  dck := s.acceptedRx.dck

theorem checkPayload_declaredSize (s : State) :
    checkPayload s.mem s.cfgEndian s.declaredSize =
      if 0 < s.declaredSize ∧ s.mem.ibuf.length < 9 + s.declaredSize then .error .fmtTrunc
      else if 0 < s.declaredSize ∧ s.inputXor 8 s.declaredSize ≠ s.mem.byte .ibuf (8 + s.declaredSize) then
        .error .fmtDck
      else .ok s.acceptedHeader := by
  have hsize : 8 + s.declaredSize + 1 = 9 + s.declaredSize := by omega
  rw [State.inputXor_eq, checkPayload, hsize, ← bytesValue_pair]
  by_cases hn : s.declaredSize = 0
  · simp [hn, State.acceptedHeader, State.acceptedRx]
  · simp [hn, Nat.pos_of_ne_zero hn, State.acceptedHeader, State.acceptedRx, Memory.len, Memory.get]

theorem elim_ite_some {α : Type} {p : Prop} [Decidable p] (a : α) (f : Cause → α) (c : Cause)
    (o : Option Cause) : (if p then some c else o).elim a f = if p then f c else o.elim a f := by
  split <;> rfl

/-- FRAME_DECODE's validator reports the first fault, or the header of a frame without one. -/
theorem checkFrame_eq (s : State) :
    checkFrame s.mem s.cfgEndian = s.frameFault.elim (.ok s.acceptedHeader) .error := by
  rw [checkFrame, ← s.declaredSize_eq, ← s.inputXor_eq, checkPayload_declaredSize, State.frameFault]
  simp only [elim_ite_some]
  rfl

theorem exec_frameDecode_of_accepted {s : State} (h : s.frameFault = none) :
    exec .frameDecode s =
      .next (({ s with rx := s.acceptedRx } : State).answered .ok (BitVec.ofNat 64 s.declaredSize) 0) :=
  execFrameDecode_of_ok (h := s.acceptedHeader) (by rw [checkFrame_eq, h]; rfl)

theorem exec_frameDecode_of_fault {s : State} {c : Cause} (h : s.frameFault = some c) :
    exec .frameDecode s = .next (({ s with rx := s.rejectedRx c } : State).answered c 0 0) :=
  execFrameDecode_of_error (by rw [checkFrame_eq, h]; rfl)

/-- Settles O38: the validator takes the branches of `State.frameFault`, and each verdict writes the RX channel
the statement lists. -/
theorem frameDecodeValidates : Obligations.FrameDecodeValidates :=
  ⟨OpRow.hasEncoding_of_find? (op := 0x3E#8) rfl,
    fun _ => ⟨exec_frameDecode_of_accepted, fun _ => exec_frameDecode_of_fault⟩⟩

/-- Every check of FRAME_DECODE passes (40_frame_codec.md R132). -/
structure State.FramePasses (s : State) : Prop where
  header : 8 ≤ s.mem.ibuf.length
  initByte : s.mem.byte .ibuf 0 = 0x45#8
  hck : s.inputXor 0 7 = s.mem.byte .ibuf 7
  size : s.declaredSize ≤ 2491
  whole : 0 < s.declaredSize → 9 + s.declaredSize ≤ s.mem.ibuf.length
  dck : 0 < s.declaredSize → s.inputXor 8 s.declaredSize = s.mem.byte .ibuf (8 + s.declaredSize)

theorem State.frameFault_eq_none_iff {s : State} : s.frameFault = none ↔ s.FramePasses := by
  constructor
  · intro h
    unfold frameFault at h
    split_ifs at h with hshort hinit hhck hsize htrunc hdck
    exact
      { header := Nat.le_of_not_lt hshort
        initByte := not_not.1 hinit
        hck := not_not.1 hhck
        size := Nat.le_of_not_lt hsize
        whole := fun hn => Nat.le_of_not_lt fun hlt => htrunc ⟨hn, hlt⟩
        dck := fun hn => not_not.1 fun hne => hdck ⟨hn, hne⟩ }
  · intro h
    rw [frameFault, if_neg (Nat.not_lt.2 h.header), if_neg (not_not.2 h.initByte), if_neg (not_not.2 h.hck),
      if_neg (Nat.not_lt.2 h.size), if_neg fun ⟨hn, hlt⟩ => Nat.not_lt.2 (h.whole hn) hlt,
      if_neg fun ⟨hn, hne⟩ => hne (h.dck hn)]

section
variable {s : State}

theorem State.frameFault_eq_fmtInit (hlen : 8 ≤ s.mem.ibuf.length) (h : s.mem.byte .ibuf 0 ≠ 0x45#8) :
    s.frameFault = some .fmtInit := by
  rw [frameFault, if_neg (Nat.not_lt.2 hlen), if_pos h]

theorem State.frameFault_eq_fmtHck (hlen : 8 ≤ s.mem.ibuf.length) (hinit : s.mem.byte .ibuf 0 = 0x45#8)
    (h : s.inputXor 0 7 ≠ s.mem.byte .ibuf 7) : s.frameFault = some .fmtHck := by
  rw [frameFault, if_neg (Nat.not_lt.2 hlen), if_neg (not_not.2 hinit), if_pos h]

theorem State.frameFault_eq_fmtSize (hlen : 8 ≤ s.mem.ibuf.length) (hinit : s.mem.byte .ibuf 0 = 0x45#8)
    (hhck : s.inputXor 0 7 = s.mem.byte .ibuf 7) (h : 2491 < s.declaredSize) : s.frameFault = some .fmtSize := by
  rw [frameFault, if_neg (Nat.not_lt.2 hlen), if_neg (not_not.2 hinit), if_neg (not_not.2 hhck), if_pos h]

theorem State.frameFault_eq_fmtDck {n : Nat} (hdeclared : s.declaredSize = n) (hlen : 9 + n ≤ s.mem.ibuf.length)
    (hinit : s.mem.byte .ibuf 0 = 0x45#8) (hhck : s.inputXor 0 7 = s.mem.byte .ibuf 7) (hsize : n ≤ 2491)
    (hn : 0 < n) (h : s.inputXor 8 n ≠ s.mem.byte .ibuf (8 + n)) : s.frameFault = some .fmtDck := by
  subst hdeclared
  have hheader : 8 ≤ s.mem.ibuf.length := by omega
  rw [frameFault, if_neg (Nat.not_lt.2 hheader), if_neg (not_not.2 hinit), if_neg (not_not.2 hhck),
    if_neg (Nat.not_lt.2 hsize), if_neg fun ⟨_, hlt⟩ => Nat.not_lt.2 hlen hlt, if_pos ⟨hn, h⟩]

end

/-! ### Input past the frame -/

/-- The length of the frame in IBUF (30_encoding.md R101). -/
def State.frameEnd (s : State) : Nat := if s.declaredSize = 0 then 8 else 9 + s.declaredSize

theorem State.frameEnd_of_pos {s : State} (hn : 0 < s.declaredSize) : s.frameEnd = 9 + s.declaredSize :=
  if_neg hn.ne'

theorem State.eight_le_frameEnd (s : State) : 8 ≤ s.frameEnd := by
  unfold frameEnd
  split <;> omega

/-- `u` holds the frame `s` holds, whatever stands after it, and reads it in the same byte order. -/
structure State.SameFrame (s u : State) : Prop where
  endian : u.cfgEndian = s.cfgEndian
  whole : s.frameEnd ≤ u.mem.ibuf.length
  bytes : ∀ k < s.frameEnd, u.mem.byte .ibuf k = s.mem.byte .ibuf k

theorem State.inputXor_congr {s u : State} {a n : Nat}
    (h : ∀ k < n, u.mem.byte .ibuf (a + k) = s.mem.byte .ibuf (a + k)) : u.inputXor a n = s.inputXor a n := by
  rw [inputXor, List.map_congr_left fun k hk => h k (List.mem_range.1 hk), inputXor]

theorem State.declaredSize_congr {s u : State} (he : u.cfgEndian = s.cfgEndian)
    (h5 : u.mem.byte .ibuf 5 = s.mem.byte .ibuf 5) (h6 : u.mem.byte .ibuf 6 = s.mem.byte .ibuf 6) :
    u.declaredSize = s.declaredSize := by
  rw [declaredSize, he, h5, h6, declaredSize]

section
variable {s u : State}

theorem State.SameFrame.header (h : s.SameFrame u) {k : Nat} (hk : k < 8) :
    u.mem.byte .ibuf k = s.mem.byte .ibuf k := h.bytes k (hk.trans_le s.eight_le_frameEnd)

theorem State.SameFrame.declaredSize (h : s.SameFrame u) : u.declaredSize = s.declaredSize :=
  declaredSize_congr h.endian (h.header (by decide)) (h.header (by decide))

theorem State.SameFrame.dck (h : s.SameFrame u) (hn : 0 < s.declaredSize) :
    u.mem.byte .ibuf (8 + s.declaredSize) = s.mem.byte .ibuf (8 + s.declaredSize) :=
  h.bytes _ (by rw [frameEnd_of_pos hn]; omega)

theorem State.SameFrame.framePasses (h : s.SameFrame u) (hs : s.FramePasses) : u.FramePasses where
  header := s.eight_le_frameEnd.trans h.whole
  initByte := (h.header (by decide)).trans hs.initByte
  hck := by
    rw [inputXor_congr fun k hk => h.header (by omega), h.header (by decide), hs.hck]
  size := h.declaredSize.trans_le hs.size
  whole := by
    rw [h.declaredSize]
    intro hn
    exact (frameEnd_of_pos hn).ge.trans h.whole
  dck := by
    rw [h.declaredSize]
    intro hn
    rw [inputXor_congr fun k hk => h.bytes _ (by rw [frameEnd_of_pos hn]; omega), h.dck hn, hs.dck hn]

theorem State.SameFrame.acceptedRx (h : s.SameFrame u) : u.acceptedRx = s.acceptedRx := by
  have hdck : (if s.declaredSize = 0 then 0x00#8 else u.mem.byte .ibuf (8 + s.declaredSize)) =
      if s.declaredSize = 0 then 0x00#8 else s.mem.byte .ibuf (8 + s.declaredSize) := by
    split
    · rfl
    · exact h.dck (Nat.pos_of_ne_zero ‹_›)
  simp only [State.acceptedRx, h.declaredSize, h.endian, hdck, h.header (show 1 < 8 by decide),
    h.header (show 2 < 8 by decide), h.header (show 3 < 8 by decide), h.header (show 4 < 8 by decide),
    h.header (show 7 < 8 by decide)]

/-- A frame that is accepted is accepted in any input that begins with it, with the same session. -/
theorem State.SameFrame.exec_frameDecode (h : s.SameFrame u) (hs : s.frameFault = none) :
    exec .frameDecode u =
      .next (({ u with rx := s.acceptedRx } : State).answered .ok (BitVec.ofNat 64 s.declaredSize) 0) := by
  have hu : u.frameFault = none := frameFault_eq_none_iff.2 (h.framePasses (frameFault_eq_none_iff.1 hs))
  rw [exec_frameDecode_of_accepted hu, h.acceptedRx, h.declaredSize]

end

theorem State.FramePasses.frameEnd_le {s : State} (h : s.FramePasses) : s.frameEnd ≤ s.mem.ibuf.length := by
  unfold frameEnd
  split
  · exact h.header
  · exact h.whole (Nat.pos_of_ne_zero ‹_›)

/-- Settles O39: the longer input begins with the same frame (`State.SameFrame`). -/
theorem trailingBytesIgnored : Obligations.TrailingBytesIgnored := by
  intro s extra h
  have hend : s.frameEnd ≤ s.mem.ibuf.length := (State.frameFault_eq_none_iff.1 h).frameEnd_le
  have hsame : s.SameFrame { s with mem := { s.mem with ibuf := s.mem.ibuf ++ extra } } :=
    { endian := rfl
      whole := hend.trans (by simp)
      bytes := fun k hk => congrArg (Option.getD · (Config.strayByte .ibuf k))
        (s.mem.byte?_push_below .ibuf extra (hk.trans_le hend)) }
  exact ⟨_, exec_frameDecode_of_accepted h, hsame.exec_frameDecode h⟩

/-! ### One byte changed -/

/-- `s` with byte `j` of IBUF replaced by `b`. -/
def State.putByte (s : State) (j : Nat) (b : Byte) : State :=
  { s with mem := { s.mem with ibuf := s.mem.ibuf.set j b } }

section
variable {s : State} {j k a n : Nat} {b : Byte}

theorem State.getElem_ibuf (hj : j < s.mem.ibuf.length) : s.mem.ibuf[j] = s.mem.byte .ibuf j := by
  simp [Memory.byte, Memory.byte?, Memory.get, hj]

/-- A change of one byte by a function of it. -/
theorem State.modify_ibuf (f : Byte → Byte) (hj : j < s.mem.ibuf.length) :
    { s with mem := { s.mem with ibuf := s.mem.ibuf.modify j f } } = s.putByte j (f (s.mem.byte .ibuf j)) := by
  rw [putByte, ← getElem_ibuf hj, List.modify_eq_set_get f hj]
  rfl

theorem State.length_putByte : (s.putByte j b).mem.ibuf.length = s.mem.ibuf.length := List.length_set

theorem State.byte_putByte_same (hj : j < s.mem.ibuf.length) : (s.putByte j b).mem.byte .ibuf j = b := by
  simp [putByte, Memory.byte, Memory.byte?, Memory.get, hj]

theorem State.byte_putByte_other (h : k ≠ j) : (s.putByte j b).mem.byte .ibuf k = s.mem.byte .ibuf k := by
  simp [putByte, Memory.byte, Memory.byte?, Memory.get, h.symm]

/-- The checksum of a span without the changed byte. -/
theorem State.inputXor_putByte_outside (h : j < a ∨ a + n ≤ j) :
    (s.putByte j b).inputXor a n = s.inputXor a n :=
  inputXor_congr fun k hk => byte_putByte_other (by omega)

theorem State.read_putByte_inside (hj : j < s.mem.ibuf.length) (ha : a ≤ j) :
    (s.putByte j b).mem.read .ibuf a n = (s.mem.read .ibuf a n).set (j - a) b := by
  apply List.ext_getElem
  · rw [Memory.read_length, List.length_set, Memory.read_length]
  · intro k hk _
    simp only [Memory.read_eq_map, List.getElem_map, List.getElem_range, List.getElem_set]
    split
    next hkj => rw [← hkj, Nat.add_sub_cancel' ha, byte_putByte_same hj]
    next hkj => exact byte_putByte_other (by omega)

/-- The checksum of a span with the changed byte. -/
theorem State.inputXor_putByte_inside (hj : j < s.mem.ibuf.length) (ha : a ≤ j) (hn : j < a + n)
    (hb : b ≠ s.mem.byte .ibuf j) : (s.putByte j b).inputXor a n ≠ s.inputXor a n := by
  have hlen : j - a < (s.mem.read .ibuf a n).length := by
    rw [Memory.read_length]
    omega
  have hold : (s.mem.read .ibuf a n)[j - a] = s.mem.byte .ibuf j := by
    simp only [Memory.read_eq_map, List.getElem_map, List.getElem_range, Nat.add_sub_cancel' ha]
  rw [inputXor_eq, inputXor_eq, read_putByte_inside hj ha]
  exact xor8_set_ne hlen (hold ▸ hb)

/-- Of a span and the checksum byte right after it, one change breaks the match. -/
theorem State.inputXor_putByte_ne (h : s.inputXor a n = s.mem.byte .ibuf (a + n)) (hj : j < s.mem.ibuf.length)
    (ha : a ≤ j) (hn : j ≤ a + n) (hb : b ≠ s.mem.byte .ibuf j) :
    (s.putByte j b).inputXor a n ≠ (s.putByte j b).mem.byte .ibuf (a + n) := by
  obtain rfl | hlt := Nat.eq_or_lt_of_le hn
  · rw [inputXor_putByte_outside (.inr (Nat.le_refl _)), byte_putByte_same hj, h]
    exact hb.symm
  · rw [byte_putByte_other hlt.ne', ← h]
    exact inputXor_putByte_inside hj ha hlt hb

theorem State.declaredSize_putByte (h : 7 ≤ j) : (s.putByte j b).declaredSize = s.declaredSize :=
  declaredSize_congr rfl (byte_putByte_other (by omega)) (byte_putByte_other (by omega))

/-! ### Every change inside an accepted frame is found -/

theorem State.FramePasses.putByte_initByte (h : s.FramePasses) (hb : b ≠ s.mem.byte .ibuf 0) :
    (s.putByte 0 b).frameFault = some .fmtInit := by
  have hlen := h.header
  apply frameFault_eq_fmtInit (hlen.trans_eq length_putByte.symm)
  rwa [byte_putByte_same (by omega), ← h.initByte]

theorem State.FramePasses.putByte_header (h : s.FramePasses) (h1 : 1 ≤ j) (h7 : j ≤ 7)
    (hb : b ≠ s.mem.byte .ibuf j) : (s.putByte j b).frameFault = some .fmtHck := by
  have hlen := h.header
  apply frameFault_eq_fmtHck (hlen.trans_eq length_putByte.symm)
  · rw [byte_putByte_other (by omega), h.initByte]
  · exact inputXor_putByte_ne (a := 0) (n := 7) h.hck (by omega) (by omega) h7 hb

theorem State.FramePasses.putByte_payload (h : s.FramePasses) (hn : 0 < s.declaredSize) (h8 : 8 ≤ j)
    (hj : j ≤ 8 + s.declaredSize) (hb : b ≠ s.mem.byte .ibuf j) :
    (s.putByte j b).frameFault = some .fmtDck := by
  have hlen := h.whole hn
  apply frameFault_eq_fmtDck (declaredSize_putByte (by omega)) (hlen.trans_eq length_putByte.symm)
  · rw [byte_putByte_other (by omega), h.initByte]
  · rw [inputXor_putByte_outside (.inr (by omega)), byte_putByte_other (by omega), h.hck]
  · exact h.size
  · exact hn
  · exact inputXor_putByte_ne (h.dck hn) (by omega) h8 hj hb

/-- A change after the frame leaves the frame. -/
theorem State.FramePasses.putByte_after (h : s.FramePasses) (hj : s.frameEnd ≤ j) :
    s.SameFrame (s.putByte j b) where
  endian := rfl
  whole := h.frameEnd_le.trans_eq length_putByte.symm
  bytes _ hk := byte_putByte_other (hk.trans_le hj).ne

end

theorem one_shiftLeft_ne_zero {k : Nat} (hk : k < 8) : 1#8 <<< k ≠ 0x00#8 := by
  revert k
  decide

/-- Settles O43: a flipped bit is another value of its byte, and another value of any byte of the frame is
found. -/
theorem singleBitFlipsAreDetected : Obligations.SingleBitFlipsAreDetected := by
  rintro s hs n rfl
  have hpass : s.FramePasses := State.frameFault_eq_none_iff.1 hs
  refine ⟨?_, ?_⟩
  · intro j k hj hk
    have hb : s.mem.byte .ibuf j ^^^ (1#8 <<< k) ≠ s.mem.byte .ibuf j := xor_ne_self (one_shiftLeft_ne_zero hk)
    rw [State.modify_ibuf _ hj]
    refine ⟨?_, ?_, ?_, ?_⟩
    · rintro rfl
      exact exec_frameDecode_of_fault (hpass.putByte_initByte hb)
    · rintro ⟨h1, h7⟩
      exact exec_frameDecode_of_fault (hpass.putByte_header h1 h7 hb)
    · rintro ⟨hn, h8, hle⟩
      exact exec_frameDecode_of_fault (hpass.putByte_payload hn h8 hle hb)
    · intro hafter
      have hend : s.frameEnd ≤ j := by
        unfold State.frameEnd
        split <;> omega
      exact (hpass.putByte_after hend).exec_frameDecode hs
  · intro b hn hb
    exact exec_frameDecode_of_fault (hpass.putByte_payload hn (Nat.le_add_right ..) (Nat.le_refl _) hb)

end Sys2Proof.Machine
end

section
/-! PROOFS. FRAME_ENCODE (40_frame_codec.md R131, R134, R137): it builds the frame of 30_encoding.md R100, and
FRAME_DECODE finds in that frame the header and the payload it was built from. -/

namespace Sys2Proof.Machine

/-! ### The frame FRAME_ENCODE builds -/

/-- Two bytes hold the low 16 bits of a number, which cutting it to 64 bits leaves alone. -/
theorem enc_two_mod (e : Endian) (n : Nat) : enc e (n % 2 ^ 64) 2 = enc e n 2 := by
  have h0 : BitVec.ofNat 8 (n % 2 ^ 64) = BitVec.ofNat 8 n := BitVec.eq_of_toNat_eq (by simp)
  have h1 : BitVec.ofNat 8 (n % 2 ^ 64 / 256) = BitVec.ofNat 8 (n / 256) := BitVec.eq_of_toNat_eq (by simp; omega)
  have hlittle : encLittle 2 (n % 2 ^ 64) = encLittle 2 n := by simp only [encLittle, h0, h1]
  cases e <;> simp only [enc, hlittle]

theorem txFrame_eq (s : State) :
    s.txFrame = buildFrame s.tx.endian s.tx.typeTag s.tx.seq s.tx.errc s.mem.obuf := by
  have hseq : valueBytes s.tx.endian 2 (s.tx.seq.setWidth 64) = enc s.tx.endian s.tx.seq.toNat 2 := by
    rw [← enc_eq_valueBytes, BitVec.toNat_setWidth_of_le (by decide)]
  have hsize : valueBytes s.tx.endian 2 (BitVec.ofNat 64 s.mem.obuf.length) =
      enc s.tx.endian s.mem.obuf.length 2 := by
    rw [← enc_eq_valueBytes, BitVec.toNat_ofNat, enc_two_mod]
  simp only [State.txFrame, hseq, hsize, ← xor8_eq_foldr, List.length_eq_zero_iff]
  exact (buildFrame_eq ..).symm

section
variable {e : Endian} {tag : Byte} {seq : BitVec 16} {errc : Byte} {p : List Byte}

theorem buildFrame_getD_hck :
    (buildFrame e tag seq errc p).getD 7 0 = xor8 (headerBytes e tag seq errc p.length) := by
  rw [buildFrame_eq, List.append_assoc, List.getD_append_right _ _ _ _ (by simp)]
  simp

theorem buildFrame_getD_dck (hp : p ≠ []) : (buildFrame e tag seq errc p).getD (8 + p.length) 0 = xor8 p := by
  rw [buildFrame_eq, if_neg hp, List.getD_append_right _ _ _ _ (by simp)]
  simp

end

theorem State.encodeFrame_eq (s : State) :
    s.encodeFrame = { s with
      mem := { s.mem with fbuf := s.txFrame }
      tx := { s.tx with
        active := false
        hck := s.txFrame.getD 7 0
        dck := if s.mem.obuf.length = 0 then 0x00#8 else s.txFrame.getD (8 + s.mem.obuf.length) 0 } } := by
  have hdck : xor8 s.mem.obuf =
      if s.mem.obuf.length = 0 then 0x00#8 else s.txFrame.getD (8 + s.mem.obuf.length) 0 := by
    split
    next h => rw [List.length_eq_zero_iff.1 h, xor8_nil]
    next h => rw [txFrame_eq, buildFrame_getD_dck (mt List.length_eq_zero_iff.2 h)]
  rw [← hdck, txFrame_eq, buildFrame_getD_hck]
  rfl

theorem exec_frameEncode_of_closed {s : State} (h : s.tx.active = false ∨ s.tx.err ≠ 0x00#8) :
    exec .frameEncode s = s.raise .state := by
  have hclosed : s.txClosed = true := by simpa [State.txClosed, Tx.poisoned] using h
  exact if_pos hclosed

theorem exec_frameEncode_of_open {s : State} (ha : s.tx.active = true) (he : s.tx.err = 0x00#8) :
    exec .frameEncode s = s.encodeFrame.respond (BitVec.ofNat 64 (s.encodeFrame.mem.len .fbuf)) 0 := by
  have hopen : s.txClosed = false := State.txClosed_eq_false ha he
  exact if_neg (Bool.eq_false_iff.1 hopen)

/-- Settles O37: the model's frame is the one written out byte by byte, and its checksums stand where the
statement reads them. -/
theorem frameEncodeBuildsTheFrame : Obligations.FrameEncodeBuildsTheFrame := by
  refine ⟨OpRow.hasEncoding_of_find? (op := 0x2F#8) rfl, fun s => ⟨exec_frameEncode_of_closed, ?_⟩⟩
  intro ha he
  have hlen : s.encodeFrame.mem.len .fbuf = if s.mem.obuf.length = 0 then 8 else 9 + s.mem.obuf.length := by
    simp only [State.encodeFrame_mem, Memory.len_set_same, buildFrame_length, List.length_eq_zero_iff]
  rw [exec_frameEncode_of_open ha he, hlen, State.encodeFrame_eq]
  rfl

/-! ### What FRAME_DECODE finds in it -/

section
variable {m : Memory} {pre mid : List Byte} {b : Byte} {a n : Nat}

theorem Memory.read_of_isPrefix (h : pre ++ mid <+: m.ibuf) (ha : pre.length = a) (hn : mid.length = n) :
    m.read .ibuf a n = mid := by
  subst ha hn
  obtain ⟨post, h⟩ := h
  have hget : m.get .ibuf = pre ++ mid ++ post := h.symm
  rw [m.read_eq_take .ibuf (by simp [len, hget]), hget, List.append_assoc, List.drop_left, List.take_left]

theorem Memory.byte?_of_isPrefix (h : pre <+: m.ibuf) (ha : a < pre.length) : m.byte? .ibuf a = pre[a]? := by
  obtain ⟨post, h⟩ := h
  rw [byte?, show m.get .ibuf = pre ++ post from h.symm, List.getElem?_append_left ha]

theorem Memory.byte_of_isPrefix (h : pre ++ [b] <+: m.ibuf) (ha : pre.length = a) : m.byte .ibuf a = b := by
  subst ha
  exact byte_of_byte? ((byte?_of_isPrefix h (by simp)).trans (by simp))

end

section
variable {m : Memory} {e : Endian} {tag : Byte} {seq : BitVec 16} {errc : Byte} {n : Nat} {p : List Byte}

/-- What FRAME_DECODE reads in bytes 0 to 7 of IBUF is a header with these fields and its checksum. -/
structure Memory.HoldsHeader (m : Memory) (e : Endian) (tag : Byte) (seq : BitVec 16) (errc : Byte) (n : Nat) :
    Prop where
  whole : 8 ≤ m.len .ibuf
  initByte_eq : m.byte .ibuf 0 = Config.initByte
  typeTag_eq : m.byte .ibuf 1 = tag
  seq_eq : dec e (m.read .ibuf 2 2) = seq.toNat
  errc_eq : m.byte .ibuf 4 = errc
  size_eq : dec e (m.read .ibuf 5 2) = n
  read_eq : m.read .ibuf 0 7 = headerBytes e tag seq errc n
  hck_eq : m.byte .ibuf 7 = xor8 (headerBytes e tag seq errc n)

/-- The fields of `headerBytes` are read back where it puts them. -/
theorem Memory.holdsHeader (hm : headerBytes e tag seq errc n ++ [xor8 (headerBytes e tag seq errc n)] <+: m.ibuf)
    (hn : n < 65536) : m.HoldsHeader e tag seq errc n := by
  have hheader : headerBytes e tag seq errc n <+: m.ibuf := (List.prefix_append ..).trans hm
  have herrc : [Config.initByte, tag] ++ enc e seq.toNat 2 ++ [errc] <+: m.ibuf :=
    (List.prefix_append _ (enc e n 2)).trans hheader
  have hseq : [Config.initByte, tag] ++ enc e seq.toNat 2 <+: m.ibuf := (List.prefix_append ..).trans herrc
  have htag : [Config.initByte] ++ [tag] <+: m.ibuf := (List.prefix_append ..).trans hseq
  exact
    { whole := by simpa [len, get] using hm.length_le
      initByte_eq := byte_of_isPrefix (pre := []) ((List.prefix_append ..).trans htag) rfl
      typeTag_eq := byte_of_isPrefix htag rfl
      seq_eq := by rw [read_of_isPrefix (a := 2) hseq rfl (by simp), dec_enc e seq.isLt]
      errc_eq := byte_of_isPrefix herrc (by simp)
      size_eq := by rw [read_of_isPrefix hheader (by simp) (by simp), dec_enc e hn]
      read_eq := read_of_isPrefix (pre := []) hheader rfl (by simp)
      hck_eq := byte_of_isPrefix hm (by simp) }

/-- The frame of a payload that is not empty, bytes in their order. -/
theorem buildFrame_of_ne_nil (hp : p ≠ []) :
    buildFrame e tag seq errc p =
      headerBytes e tag seq errc p.length ++ [xor8 (headerBytes e tag seq errc p.length)] ++ p ++ [xor8 p] := by
  rw [buildFrame_eq, if_neg hp, List.append_assoc _ p]

/-- The header FRAME_DECODE gives back for the frame of `buildFrame`, as `checkFrame_buildFrame` says. -/
def builtHeader (e : Endian) (tag : Byte) (seq : BitVec 16) (errc : Byte) (p : List Byte) : Header :=
  ⟨tag, seq, errc, p.length, xor8 (headerBytes e tag seq errc p.length), xor8 p⟩

/-- The data checks of FRAME_DECODE pass on a payload followed by its checksum. -/
theorem Memory.HoldsHeader.checkPayload_eq (h : m.HoldsHeader e tag seq errc p.length)
    (hm : buildFrame e tag seq errc p <+: m.ibuf) :
    checkPayload m e p.length = .ok (builtHeader e tag seq errc p) := by
  rw [checkPayload, h.seq_eq, h.typeTag_eq, h.errc_eq, h.hck_eq, BitVec.ofNat_toNat, BitVec.setWidth_eq]
  by_cases hp : p = []
  · rw [if_pos (List.length_eq_zero_iff.2 hp), builtHeader, hp, xor8_nil]
  · have hlen : 8 + p.length + 1 ≤ m.len .ibuf := by
      have hle : (buildFrame e tag seq errc p).length ≤ m.len .ibuf := hm.length_le
      rw [buildFrame_length, if_neg hp] at hle
      omega
    rw [buildFrame_of_ne_nil hp] at hm
    have hread : m.read .ibuf 8 p.length = p :=
      read_of_isPrefix ((List.prefix_append ..).trans hm) (by simp) rfl
    have hdck : m.byte .ibuf (8 + p.length) = xor8 p := byte_of_isPrefix hm (by simp; omega)
    rw [if_neg (mt List.length_eq_zero_iff.1 hp), if_neg (Nat.not_lt.2 hlen), hread, hdck, if_pos rfl, builtHeader]

/-- FRAME_DECODE's validator passes what FRAME_ENCODE builds and gives its header back. -/
theorem checkFrame_buildFrame (hm : buildFrame e tag seq errc p <+: m.ibuf) (hp : p.length ≤ 2491) :
    checkFrame m e = .ok (builtHeader e tag seq errc p) := by
  have hheader : headerBytes e tag seq errc p.length ++ [xor8 (headerBytes e tag seq errc p.length)] <+: m.ibuf :=
    (List.prefix_append ..).trans (buildFrame_eq .. ▸ hm)
  have h : m.HoldsHeader e tag seq errc p.length := Memory.holdsHeader hheader (by omega)
  have hsum : xor8 (m.read .ibuf 0 7) = m.byte .ibuf 7 := by rw [h.read_eq, h.hck_eq]
  rw [checkFrame, h.size_eq, if_neg (Nat.not_lt.2 h.whole), if_neg (not_not.2 h.initByte_eq),
    if_neg (not_not.2 hsum), if_neg (Nat.not_lt.2 hp), h.checkPayload_eq hm]

theorem byte?_buildFrame_payload (hm : buildFrame e tag seq errc p <+: m.ibuf) {k : Nat} (hk : k < p.length) :
    m.byte? .ibuf (8 + k) = p[k]? := by
  rw [buildFrame_of_ne_nil (List.ne_nil_of_length_pos (by omega))] at hm
  rw [Memory.byte?_of_isPrefix ((List.prefix_append ..).trans hm) (by simp; omega),
    List.getElem?_append_right (by simp)]
  simp

end

/-- Settles O42: the validator gives back the header the frame was built with, by `checkFrame_buildFrame`. -/
theorem frameRoundTrip : Obligations.FrameRoundTrip := by
  intro s t u extra ha he hlen ht hu hend
  rw [exec_frameEncode_of_open ha he] at ht
  cases ht
  have hframe : buildFrame s.tx.endian s.tx.typeTag s.tx.seq s.tx.errc s.mem.obuf <+: u.mem.ibuf :=
    ⟨extra, hu.symm⟩
  have hcheck : checkFrame u.mem u.cfgEndian =
      .ok (builtHeader s.tx.endian s.tx.typeTag s.tx.seq s.tx.errc s.mem.obuf) := by
    rw [hend, checkFrame_buildFrame hframe hlen]
  refine ⟨_, execFrameDecode_of_ok hcheck, ?_, fun k => byte?_buildFrame_payload hframe, rfl⟩
  simp only [State.finish_rx, State.openSession_rx, State.startDecode_rx, hend]
  rfl

/-- Settles O44: the invariants bound FBUF after the command too; and a data size above 2491 is the first fault
of a header that passes its checksum. -/
theorem frameSizeIsBounded : Obligations.FrameSizeIsBounded := by
  refine ⟨fun s t hs ht => ?_, fun s hlen hinit hhck hsize => ?_⟩
  · obtain ⟨u, c, nh, d, a, hu, rfl⟩ := effect_of_exec ht
    exact (Memory.wf_iff _).1 (hu.keeps_inv hs).memory .fbuf
  · exact ⟨_, _, exec_frameDecode_of_fault (State.frameFault_eq_fmtSize hlen hinit hhck hsize), rfl,
      Response.cause_statusWord .., rfl⟩

end Sys2Proof.Machine
end

section
/-! PROOFS. The field coder (41_field_coder.md): TX_BEGIN, and what a field write does to a closed session,
to an operand outside its type, to a full payload or log, and otherwise. The refusals of the closed decoder
session (42_field_decoder.md R191) stand with those of the coder. -/

namespace Sys2Proof.Machine

/-- Settles O29: TX_BEGIN's one write is the session the statement lists. -/
theorem txBeginOpensSession : Obligations.TxBeginOpensSession :=
  ⟨OpRow.hasEncoding_of_find? (op := 0x2E#8) rfl, fun _ => rfl⟩

/-! ### Refusals by a closed session -/

theorem State.txClosed_eq_true_iff (s : State) : s.txClosed = true ↔ s.tx.active = false ∨ s.tx.err ≠ 0x00#8 := by
  simp [State.txClosed, Tx.poisoned]

section
variable {s : State} {t : FieldType} {e : BitVec 16}

theorem writeScalar_of_closed (h : s.tx.active = false ∨ s.tx.err ≠ 0x00#8) :
    writeScalar t e s = s.raise .state := if_pos (s.txClosed_eq_true_iff.2 h)

theorem writeBytes_of_closed {bs : List Byte} (h : s.tx.active = false ∨ s.tx.err ≠ 0x00#8) :
    writeBytes t e bs s = s.raise .state := if_pos (s.txClosed_eq_true_iff.2 h)

theorem exec_write_of_closed {i : Instr} (hi : isWrite i = true) (h : s.tx.active = false ∨ s.tx.err ≠ 0x00#8) :
    exec i s = s.raise .state := by
  cases i with
  | wrByte _ | wrShort _ | wrUshort _ | wrInt _ | wrUint _ | wrLong _ | wrDouble _ => exact writeScalar_of_closed h
  | wrString _ | wrBytes _ | wrBytesLp _ => exact writeBytes_of_closed h
  | _ => cases hi

theorem readScalar_of_closed (h : s.rx.valid = false) : readScalar t e s = s.raise .state :=
  if_neg (Bool.eq_false_iff.1 h)

theorem readPrefixed_of_closed (h : s.rx.valid = false) : readPrefixed t e s = s.raise .state :=
  if_neg (Bool.eq_false_iff.1 h)

theorem execRdBytes_of_closed (h : s.rx.valid = false) : execRdBytes e s = s.raise .state :=
  if_neg (Bool.eq_false_iff.1 h)

theorem exec_read_of_closed {i : Instr} (hi : isRead i = true) (h : s.rx.valid = false) :
    exec i s = s.raise .state := by
  cases i with
  | rdByte _ | rdShort _ | rdUshort _ | rdInt _ | rdUint _ | rdLong _ | rdDouble _ => exact readScalar_of_closed h
  | rdString _ | rdBytesLp _ => exact readPrefixed_of_closed h
  | rdBytes _ => exact execRdBytes_of_closed h
  | _ => cases hi

end

/-- Settles O32: every command of the two families begins with its session check, and so does FRAME_ENCODE. -/
theorem closedSessionsRefuse : Obligations.ClosedSessionsRefuse := by
  refine fun s i => ⟨fun hi hclosed => ?_, exec_read_of_closed⟩
  obtain hwrite | rfl := hi
  · exact exec_write_of_closed hwrite hclosed
  · exact exec_frameEncode_of_closed hclosed

/-! ### The range of an operand -/

/-- The bits from `lo` up are zero just when the value fits below them. -/
theorem extractLsb'_eq_zero_iff {w lo n : Nat} (hw : lo + n = w) (v : BitVec w) :
    v.extractLsb' lo n = 0#n ↔ v.toNat < 2 ^ lo := by
  have hshift : v.toNat >>> lo < 2 ^ n := by
    rw [Nat.shiftRight_eq_div_pow]
    exact Nat.div_lt_of_lt_mul (by rw [← pow_add, hw]; exact v.isLt)
  rw [← BitVec.toNat_inj, BitVec.extractLsb'_toNat, Nat.mod_eq_of_lt hshift, BitVec.toNat_ofNat, Nat.zero_mod,
    Nat.shiftRight_eq_div_pow, Nat.div_eq_zero_iff_lt (Nat.two_pow_pos lo)]

/-- A value is the sign extension of its low bits just when it is a two's complement value of that width. -/
theorem eq_signExtend_extractLsb'_iff {w k : Nat} (hw : k + 1 ≤ w) (v : BitVec w) :
    v = (v.extractLsb' 0 (k + 1)).signExtend w ↔ -2 ^ k ≤ v.toInt ∧ v.toInt < 2 ^ k := by
  have hext : ((v.extractLsb' 0 (k + 1)).signExtend w).toInt = (v.extractLsb' 0 (k + 1)).toInt :=
    BitVec.toInt_signExtend_of_le hw
  constructor
  · intro h
    rw [h, hext]
    exact ⟨BitVec.le_toInt _, BitVec.toInt_lt⟩
  · rintro ⟨hlo, hhi⟩
    have hlow : (v.extractLsb' 0 (k + 1)).toInt = v.toInt.bmod (2 ^ (k + 1)) := by
      rw [BitVec.toInt_extractLsb', Nat.shiftRight_zero, BitVec.toInt_eq_toNat_bmod,
        Int.bmod_bmod_of_dvd (pow_dvd_pow 2 hw)]
    have hpow : ((2 ^ (k + 1) : Nat) : Int) = 2 * 2 ^ k := by push_cast; ring
    rw [← BitVec.toInt_inj, hext, hlow, Int.bmod_eq_of_le (by omega) (by omega)]

/-- The model's bit test of an operand (41_field_coder.md R163) is the range of its type by number. -/
theorem inRange_iff_fits (t : FieldType) (v : BitVec 64) : inRange t v = true ↔ fits t v := by
  cases t with
  | byte | ushort | uint =>
    rw [inRange, beq_iff_eq, extractLsb'_eq_zero_iff rfl, fits]
    omega
  | short | int =>
    rw [inRange, beq_iff_eq, eq_signExtend_extractLsb'_iff (by decide), fits]
    omega
  | long | double | string | byteArray => exact iff_of_true rfl trivial

/-! ### A field write, outcome by outcome -/

section
variable {s : State} {t : FieldType} {e : BitVec 16} {bs : List Byte}

theorem writeField_of_overflow (h : 2491 < s.mem.obuf.length + bs.length ∨ s.tx.log.length = Config.logCap) :
    writeField t e bs s = s.poison .overflow := by
  obtain ⟨-, hr⟩ | ⟨hfit, hroom, -⟩ := writeField_cases t e bs s
  · exact hr
  · exact absurd h (not_or_intro (Nat.not_lt.2 hfit) hroom)

theorem writeField_of_room (hfit : s.mem.obuf.length + bs.length ≤ 2491) (hroom : s.tx.log.length ≠ Config.logCap) :
    writeField t e bs s = (s.appendField t e bs).respond 0 0 := by
  obtain ⟨hfull, -⟩ | ⟨-, -, hr⟩ := writeField_cases t e bs s
  · exact absurd hfull (not_or_intro (Nat.not_lt.2 hfit) hroom)
  · exact hr

theorem writeBytes_of_open (ha : s.tx.active = true) (he : s.tx.err = 0x00#8) :
    writeBytes t e bs s = writeField t e bs s :=
  if_neg (Bool.eq_false_iff.1 (State.txClosed_eq_false ha he))

theorem writeScalar_of_open (ha : s.tx.active = true) (he : s.tx.err = 0x00#8) :
    writeScalar t e s =
      if inRange t s.din then writeField t e (enc s.tx.endian s.din.toNat (scalarWidth t)) s else s.poison .range :=
  if_neg (Bool.eq_false_iff.1 (State.txClosed_eq_false ha he))

theorem writeScalar_of_not_fits (ha : s.tx.active = true) (he : s.tx.err = 0x00#8) (hv : ¬ fits t s.din) :
    writeScalar t e s = s.poison .range := by
  rw [writeScalar_of_open ha he, if_neg (mt (inRange_iff_fits t _).1 hv)]

theorem writeScalar_of_fits (ha : s.tx.active = true) (he : s.tx.err = 0x00#8) (hv : fits t s.din) :
    writeScalar t e s = writeField t e (valueBytes s.tx.endian (scalarWidth t) s.din) s := by
  rw [writeScalar_of_open ha he, if_pos ((inRange_iff_fits t _).2 hv), enc_eq_valueBytes]

end

@[simp] theorem valueBytes_length (e : Endian) (w : Nat) (v : BitVec 64) : (valueBytes e w v).length = w := by
  rw [← enc_eq_valueBytes, enc_length]

/-! ### The scalar writes -/

theorem scalarWrites_hasEncoding :
    ∀ p ∈ scalarWrites, HasEncoding 0x0000FFFF#32 p.2.2.1 (fun _ b => p.2.2.2 b) := by
  simp only [scalarWrites, List.forall_mem_cons]
  exact ⟨OpRow.hasEncoding_of_find? (op := 0x20#8) rfl, OpRow.hasEncoding_of_find? (op := 0x21#8) rfl,
    OpRow.hasEncoding_of_find? (op := 0x22#8) rfl, OpRow.hasEncoding_of_find? (op := 0x23#8) rfl,
    OpRow.hasEncoding_of_find? (op := 0x24#8) rfl, OpRow.hasEncoding_of_find? (op := 0x25#8) rfl,
    OpRow.hasEncoding_of_find? (op := 0x26#8) rfl, List.forall_mem_nil _⟩

theorem exec_scalarWrite (e : BitVec 16) (s : State) :
    ∀ p ∈ scalarWrites, exec (p.2.2.2 e) s = writeScalar p.1 e s := by
  simp only [scalarWrites, List.forall_mem_cons]
  exact ⟨rfl, rfl, rfl, rfl, rfl, rfl, rfl, List.forall_mem_nil _⟩

theorem scalarWidth_scalarWrite : ∀ p ∈ scalarWrites, scalarWidth p.1 = p.2.1 := by
  simp only [scalarWrites, List.forall_mem_cons]
  exact ⟨rfl, rfl, rfl, rfl, rfl, rfl, rfl, List.forall_mem_nil _⟩

/-- Settles O30: each command is `writeScalar` at its type, whose checks are taken in the statement's order. -/
theorem scalarWritesAppendOrFail : Obligations.ScalarWritesAppendOrFail := by
  refine ⟨scalarWrites_hasEncoding, fun s e p hp => ?_⟩
  rw [exec_scalarWrite e s p hp, ← scalarWidth_scalarWrite p hp]
  refine ⟨writeScalar_of_closed, fun ha he => ⟨writeScalar_of_not_fits ha he, fun hv => ?_, fun hv => ?_⟩⟩ <;>
    rw [writeScalar_of_fits ha he hv]
  · intro hfull
    exact writeField_of_overflow (by rwa [valueBytes_length])
  · intro hfit
    exact writeField_of_room (by rwa [valueBytes_length])

/-! ### The variable-length writes -/

theorem stagedWrites_hasEncoding :
    ∀ p ∈ stagedWrites, HasEncoding 0x0000FFFF#32 p.2.2.1 (fun _ b => p.2.2.2 b) := by
  simp only [stagedWrites, List.forall_mem_cons]
  exact ⟨OpRow.hasEncoding_of_find? (op := 0x27#8) rfl, OpRow.hasEncoding_of_find? (op := 0x28#8) rfl,
    OpRow.hasEncoding_of_find? (op := 0x29#8) rfl, List.forall_mem_nil _⟩

theorem lengthPrefixed_stage (s : State) : lengthPrefixed s.tx.endian s.mem.stage = s.stagedField true := by
  rw [lengthPrefixed, ← enc_two_mod, ← BitVec.toNat_ofNat, enc_eq_valueBytes]
  rfl

theorem exec_stagedWrite (e : BitVec 16) (s : State) :
    ∀ p ∈ stagedWrites, exec (p.2.2.2 e) s = writeBytes p.1 e (s.stagedField p.2.1) s := by
  simp only [stagedWrites, List.forall_mem_cons, ← lengthPrefixed_stage]
  exact ⟨rfl, rfl, rfl, List.forall_mem_nil _⟩

/-- Settles O31: each command is `writeBytes` of the staged field, which writes STAGE nowhere. -/
theorem stagedWritesAppendOrFail : Obligations.StagedWritesAppendOrFail := by
  refine ⟨stagedWrites_hasEncoding, fun s e p hp => ?_⟩
  rw [exec_stagedWrite e s p hp]
  refine ⟨writeBytes_of_closed, fun ha he => ?_⟩
  rw [writeBytes_of_open ha he]
  exact ⟨writeField_of_overflow, writeField_of_room⟩

end Sys2Proof.Machine
end

section
/-! PROOFS. The field decoder (42_field_decoder.md): what a field read of an open session answers, or how it
fails, past its payload, on a full log and otherwise; and that it sees no byte but the unread payload's. -/

namespace Sys2Proof.Machine

/-! ### The value at the cursor -/

theorem decLittle_lt (bs : List Byte) : decLittle bs < 256 ^ bs.length := by
  induction bs with
  | nil => exact Nat.one_pos
  | cons b bs ih =>
    have hb : b.toNat < 256 := b.isLt
    rw [decLittle, List.length_cons, pow_succ]
    omega

theorem dec_lt (e : Endian) (bs : List Byte) : dec e bs < 256 ^ bs.length := by
  cases e with
  | little => exact decLittle_lt bs
  | big => exact (decLittle_lt bs.reverse).trans_eq (by rw [List.length_reverse])

theorem State.cursorValue_eq (s : State) (n : Nat) : s.cursorValue n = bytesValue s.rx.endian (s.cursorBytes n) := by
  rw [cursorValue, dec_eq_bytesValue, Memory.read_eq_map, cursorBytes]

theorem State.cursorValue_lt (s : State) (n : Nat) : s.cursorValue n < 256 ^ n :=
  (dec_lt s.rx.endian (s.mem.read .ibuf s.rx.off.toNat n)).trans_eq (by rw [Memory.read_length])

/-- The sign extension of an unsigned value is its two's complement reading (00_scope.md R9). -/
theorem signExtend_ofNat {k n v : Nat} (hv : v < 2 ^ (k + 1)) :
    (BitVec.ofNat (k + 1) v).signExtend n =
      if v < 2 ^ k then BitVec.ofNat n v else BitVec.ofInt n ((v : Int) - (2 ^ (k + 1) : Nat)) := by
  have htoInt : (BitVec.ofNat (k + 1) v).toInt =
      if v < 2 ^ k then (v : Int) else (v : Int) - (2 ^ (k + 1) : Nat) := by
    have hhalf : 2 * v < 2 ^ (k + 1) ↔ v < 2 ^ k := by rw [pow_succ', Nat.mul_lt_mul_left (by decide)]
    rw [BitVec.toInt_eq_toNat_cond, BitVec.toNat_ofNat, Nat.mod_eq_of_lt hv]
    exact if_congr hhalf rfl rfl
  rw [BitVec.signExtend, htoInt, apply_ite (BitVec.ofInt n), BitVec.ofInt_natCast]

/-- A value that a scalar type's bytes can hold is widened by the type's signedness (R191). -/
theorem extend_eq_widened {t : FieldType} {v : Nat} (hv : v < 256 ^ scalarWidth t) : extend t v = widened t v := by
  cases t with
  | byte | ushort | uint => exact BitVec.setWidth_ofNat_of_le_of_lt (by decide) hv
  | short | int => exact signExtend_ofNat hv
  | long | double | string | byteArray => rfl

theorem State.extend_cursorValue (s : State) (t : FieldType) :
    extend t (s.cursorValue (scalarWidth t)) =
      widened t (bytesValue s.rx.endian (s.cursorBytes (scalarWidth t))) := by
  rw [extend_eq_widened (s.cursorValue_lt _), cursorValue_eq]

/-! ### A field read, outcome by outcome -/

section
variable {s : State} {t : FieldType} {e : BitVec 16} {n : Nat} {d : BitVec 64} {a : BitVec 16}

theorem readField_of_bounds (h : s.rx.endOff.toNat < s.rx.off.toNat + n) :
    readField t e n d a s = s.rpoison .bounds := if_pos h

theorem readField_of_within (h : s.rx.off.toNat + n ≤ s.rx.endOff.toNat) :
    readField t e n d a s =
      if s.rx.log.length = Config.logCap then s.rpoison .overflow else (s.consume t e n).respond d a :=
  if_neg (Nat.not_lt.2 h)

theorem readField_of_overflow (h : s.rx.off.toNat + n ≤ s.rx.endOff.toNat) (hfull : s.rx.log.length = Config.logCap) :
    readField t e n d a s = s.rpoison .overflow := (readField_of_within h).trans (if_pos hfull)

theorem readField_of_room (h : s.rx.off.toNat + n ≤ s.rx.endOff.toNat) (hroom : s.rx.log.length ≠ Config.logCap) :
    readField t e n d a s = (s.consume t e n).respond d a := (readField_of_within h).trans (if_neg hroom)

theorem readScalar_of_open (hv : s.rx.valid = true) :
    readScalar t e s =
      readField t e (scalarWidth t) (widened t (bytesValue s.rx.endian (s.cursorBytes (scalarWidth t)))) 0 s := by
  rw [readScalar, if_pos hv, s.extend_cursorValue]

theorem readPrefixed_of_no_prefix (hv : s.rx.valid = true) (h : s.rx.endOff.toNat < s.rx.off.toNat + 2) :
    readPrefixed t e s = s.rpoison .bounds := (if_pos hv).trans (if_pos h)

theorem readPrefixed_of_prefix (hv : s.rx.valid = true) (h : s.rx.off.toNat + 2 ≤ s.rx.endOff.toNat) :
    readPrefixed t e s =
      readField t e (2 + s.prefixLength) (BitVec.ofNat 64 s.prefixLength) (BitVec.ofNat 16 (s.rx.off.toNat + 2)) s := by
  rw [readPrefixed, if_pos hv, if_neg (Nat.not_lt.2 h), s.cursorValue_eq, State.prefixLength]

theorem State.din_high_eq_zero_iff : s.din.extractLsb' 16 48 = 0#48 ↔ s.din.toNat < 65536 :=
  extractLsb'_eq_zero_iff (lo := 16) (n := 48) rfl s.din

theorem execRdBytes_of_range (hv : s.rx.valid = true) (h : 65536 ≤ s.din.toNat) :
    execRdBytes e s = s.rpoison .range :=
  (if_pos hv).trans (if_neg (mt State.din_high_eq_zero_iff.1 (Nat.not_lt.2 h)))

/-- A DIN below 2^16 is its low 16 bits, the length RD_BYTES takes. -/
theorem execRdBytes_of_fits (hv : s.rx.valid = true) (h : s.din.toNat < 65536) :
    execRdBytes e s = readField .byteArray e s.din.toNat s.din s.rx.off s := by
  have hlow : (s.din.extractLsb' 0 16).toNat = s.din.toNat := by
    rw [BitVec.extractLsb'_toNat, Nat.shiftRight_zero, Nat.mod_eq_of_lt h]
  have hdout : (s.din.extractLsb' 0 16).setWidth 64 = s.din :=
    BitVec.eq_of_toNat_eq (by rw [BitVec.toNat_setWidth_of_le (by decide), hlow])
  rw [execRdBytes, if_pos hv, if_pos (State.din_high_eq_zero_iff.2 h), hlow, hdout]

end

/-! ### The three families of reads -/

theorem scalarReads_hasEncoding :
    ∀ p ∈ scalarReads, HasEncoding 0x0000FFFF#32 p.2.2.1 (fun _ b => p.2.2.2 b) := by
  simp only [scalarReads, List.forall_mem_cons]
  exact ⟨OpRow.hasEncoding_of_find? (op := 0x30#8) rfl, OpRow.hasEncoding_of_find? (op := 0x31#8) rfl,
    OpRow.hasEncoding_of_find? (op := 0x32#8) rfl, OpRow.hasEncoding_of_find? (op := 0x33#8) rfl,
    OpRow.hasEncoding_of_find? (op := 0x34#8) rfl, OpRow.hasEncoding_of_find? (op := 0x35#8) rfl,
    OpRow.hasEncoding_of_find? (op := 0x36#8) rfl, List.forall_mem_nil _⟩

theorem exec_scalarRead (e : BitVec 16) (s : State) :
    ∀ p ∈ scalarReads, exec (p.2.2.2 e) s = readScalar p.1 e s := by
  simp only [scalarReads, List.forall_mem_cons]
  exact ⟨rfl, rfl, rfl, rfl, rfl, rfl, rfl, List.forall_mem_nil _⟩

theorem scalarWidth_scalarRead : ∀ p ∈ scalarReads, scalarWidth p.1 = p.2.1 := by
  simp only [scalarReads, List.forall_mem_cons]
  exact ⟨rfl, rfl, rfl, rfl, rfl, rfl, rfl, List.forall_mem_nil _⟩

/-- Settles O33: each command is `readScalar` at its type, whose checks are taken in the statement's order. -/
theorem scalarReadsAnswerOrFail : Obligations.ScalarReadsAnswerOrFail := by
  refine ⟨scalarReads_hasEncoding, fun s e p hp => ?_⟩
  rw [exec_scalarRead e s p hp, ← scalarWidth_scalarRead p hp]
  refine ⟨readScalar_of_closed, fun hv => ?_⟩
  rw [readScalar_of_open hv]
  exact ⟨readField_of_bounds, readField_of_overflow, readField_of_room⟩

theorem prefixedReads_hasEncoding :
    ∀ p ∈ prefixedReads, HasEncoding 0x0000FFFF#32 p.2.1 (fun _ b => p.2.2 b) := by
  simp only [prefixedReads, List.forall_mem_cons]
  exact ⟨OpRow.hasEncoding_of_find? (op := 0x37#8) rfl, OpRow.hasEncoding_of_find? (op := 0x39#8) rfl,
    List.forall_mem_nil _⟩

theorem exec_prefixedRead (e : BitVec 16) (s : State) :
    ∀ p ∈ prefixedReads, exec (p.2.2 e) s = readPrefixed p.1 e s := by
  simp only [prefixedReads, List.forall_mem_cons]
  exact ⟨rfl, rfl, List.forall_mem_nil _⟩

/-- Settles O34: once the length lies in the payload, length and data are one field read, so a failure consumes
neither. -/
theorem prefixedReadsAnswerOrFail : Obligations.PrefixedReadsAnswerOrFail := by
  refine ⟨prefixedReads_hasEncoding, fun s e p hp => ?_⟩
  rw [exec_prefixedRead e s p hp]
  refine ⟨readPrefixed_of_closed, fun hv => ?_⟩
  by_cases hprefix : s.rx.endOff.toNat < s.rx.off.toNat + 2
  · have hpast : s.rx.endOff.toNat < s.rx.off.toNat + 2 + s.prefixLength := Nat.lt_add_right _ hprefix
    exact ⟨fun _ => readPrefixed_of_no_prefix hv hprefix, fun hfit => absurd hpast (Nat.not_lt.2 hfit),
      fun hfit => absurd hpast (Nat.not_lt.2 hfit)⟩
  · rw [readPrefixed_of_prefix hv (Nat.le_of_not_lt hprefix), or_iff_right hprefix, Nat.add_assoc]
    exact ⟨readField_of_bounds, readField_of_overflow, readField_of_room⟩

/-- Settles O35: RD_BYTES checks DIN, then is a field read of that many bytes. -/
theorem rawReadAnswersOrFails : Obligations.RawReadAnswersOrFails := by
  refine ⟨OpRow.hasEncoding_of_find? (op := 0x38#8) rfl, fun s e => ⟨execRdBytes_of_closed, fun hv => ?_⟩⟩
  refine ⟨execRdBytes_of_range hv, fun hd => ?_, fun hd => ?_, fun hd => ?_⟩ <;>
    rw [exec, execRdBytes_of_fits hv hd]
  · exact readField_of_bounds
  · exact readField_of_overflow
  · exact readField_of_room

/-! ### What a read sees of the memory -/

/-- The same block with any memory. -/
def State.withMem (m : Memory) (s : State) : State := { s with mem := m }

section
variable {s : State} {m : Memory} {t : FieldType} {e : BitVec 16} {n : Nat} {d d' : BitVec 64} {a : BitVec 16}

/-- The two memories hold the same unread payload. -/
def State.SamePayload (s : State) (m : Memory) : Prop :=
  ∀ k, s.rx.off.toNat ≤ k → k < s.rx.endOff.toNat → m.byte? .ibuf k = s.mem.byte? .ibuf k

theorem State.SamePayload.cursorValue_eq (h : s.SamePayload m) (hn : s.rx.off.toNat + n ≤ s.rx.endOff.toNat) :
    (s.withMem m).cursorValue n = s.cursorValue n := by
  have hbyte : ∀ k ∈ List.range n, m.byte .ibuf (s.rx.off.toNat + k) = s.mem.byte .ibuf (s.rx.off.toNat + k) := by
    intro k hk
    have hlt : k < n := List.mem_range.1 hk
    rw [Memory.byte, h _ (Nat.le_add_right ..) (by omega), Memory.byte]
  have hread : m.read .ibuf s.rx.off.toNat n = s.mem.read .ibuf s.rx.off.toNat n := by
    rw [Memory.read_eq_map, List.map_congr_left hbyte, Memory.read_eq_map]
  exact congrArg (dec s.rx.endian) hread

/-- A field read uses its result only when its bytes lie in the payload. -/
theorem readField_withMem (hd : s.rx.off.toNat + n ≤ s.rx.endOff.toNat → d' = d) :
    Commutes (State.withMem m) (readField t e n d a s) (readField t e n d' a (s.withMem m)) := by
  refine .ite Iff.rfl (fun _ => .finish (s.setRxErr .bounds)) fun hin => ?_
  rw [hd (Nat.le_of_not_lt hin)]
  exact .ite Iff.rfl (fun _ => .finish (s.setRxErr .overflow)) fun _ => .finish (s.consume t e n)

theorem State.SamePayload.readScalar_commutes (h : s.SamePayload m) :
    Commutes (State.withMem m) (readScalar t e s) (readScalar t e (s.withMem m)) :=
  .ite Iff.rfl (fun _ => readField_withMem fun hn => congrArg (extend t) (h.cursorValue_eq hn)) fun _ => .finish s

theorem State.SamePayload.readPrefixed_commutes (h : s.SamePayload m) :
    Commutes (State.withMem m) (readPrefixed t e s) (readPrefixed t e (s.withMem m)) := by
  refine .ite Iff.rfl (fun _ => .ite Iff.rfl (fun _ => .finish (s.setRxErr .bounds)) fun hin => ?_) fun _ => .finish s
  rw [h.cursorValue_eq (Nat.le_of_not_lt hin)]
  exact readField_withMem fun _ => rfl

theorem execRdBytes_withMem :
    Commutes (State.withMem m) (execRdBytes e s) (execRdBytes e (s.withMem m)) :=
  .ite Iff.rfl
    (fun _ => .ite Iff.rfl (fun _ => readField_withMem fun _ => rfl) fun _ => .finish (s.setRxErr .range))
    fun _ => .finish s

theorem State.SamePayload.read_commutes (h : s.SamePayload m) {i : Instr} (hi : isRead i = true) :
    Commutes (State.withMem m) (exec i s) (exec i (s.withMem m)) := by
  cases i with
  | rdByte _ | rdShort _ | rdUshort _ | rdInt _ | rdUint _ | rdLong _ | rdDouble _ => exact h.readScalar_commutes
  | rdString _ | rdBytesLp _ => exact h.readPrefixed_commutes
  | rdBytes _ => exact execRdBytes_withMem
  | _ => cases hi

end

/-- Settles O36: a read takes the same branch on both memories, and its result is computed from bytes they
share. -/
theorem readsSeeOnlyThePayload : Obligations.ReadsSeeOnlyThePayload := by
  intro s t i m hi ht hsame
  obtain ⟨u, c, nh, d, a, hu, hr⟩ := State.SamePayload.read_commutes hsame hi
  cases ht.symm.trans hu
  exact hr

end Sys2Proof.Machine
end

section
/-! PROOFS. A message of scalar fields written, encoded, decoded and read back (42_field_decoder.md R204,
40_frame_codec.md R134): runs in which every command succeeds, joined end to end. -/

namespace Sys2Proof.Machine

/-! ### Runs in which every command succeeds -/

/-- From `s` the next steps each answer OK with the DOUTs `ds`, in order, and leave the block at `t`. -/
inductive RunsOk : State → List (BitVec 64) → State → Prop
  | done (s : State) : RunsOk s [] s
  | answer {s u t : State} {d : BitVec 64} {a : BitVec 16} {ds : List (BitVec 64)}
      (first : step s = .next (u.finish .ok false d a)) (rest : RunsOk (u.finish .ok false d a) ds t) :
      RunsOk s (d :: ds) t

section
variable {s t u : State} {ds ds' : List (BitVec 64)}

theorem RunsOk.append (h : RunsOk s ds t) (h' : RunsOk t ds' u) : RunsOk s (ds ++ ds') u := by
  induction h with
  | done _ => exact h'
  | answer first _ ih => exact .answer first (ih h')

theorem RunsOk.of_step {d : BitVec 64} {a : BitVec 16} (h : step s = .next (u.finish .ok false d a)) :
    RunsOk s [d] (u.finish .ok false d a) := .answer h (.done _)

theorem RunsOk.runSteps_eq (h : RunsOk s ds t) : runSteps ds.length s = .next t := by
  induction h with
  | done _ => rfl
  | answer first _ ih => simp only [List.length_cons, runSteps, first, ih]

theorem RunsOk.observe_cause (h : RunsOk s ds t) : ∀ r ∈ observe ds.length s, r.cause = 0x00#8 := by
  induction h with
  | done _ => exact List.forall_mem_nil _
  | answer first _ ih =>
    simp only [List.length_cons, observe, first, State.finish_response, Option.toList_some, List.singleton_append,
      List.forall_mem_cons]
    exact ⟨Response.cause_statusWord .., ih⟩

theorem RunsOk.observe_dout (h : RunsOk s ds t) : (observe ds.length s).map Response.dout = ds := by
  induction h with
  | done _ => rfl
  | answer first _ ih =>
    simp only [List.length_cons, observe, first, State.finish_response, Option.toList_some, List.singleton_append,
      List.map_cons, ih]

/-- What the host sees of such a run of `n` commands. -/
theorem RunsOk.observed {n : Nat} (h : RunsOk s ds t) (hn : ds.length = n) :
    runSteps n s = .next t ∧ (∀ r ∈ observe n s, r.cause = 0x00#8) ∧ (observe n s).map Response.dout = ds := by
  subst hn
  exact ⟨h.runSteps_eq, h.observe_cause, h.observe_dout⟩

end

/-- A step takes the well-formed command whose encoding stands at the port. -/
theorem step_encode {s : State} {i : Instr} {din : BitVec 64} {name : BitVec 32} {rest : List HostMove}
    (hp : s.pending = .command ⟨encode i, din, name⟩ :: rest) (hi : i.wellFormed = true) :
    step s = exec i s ∧ s.din = din ∧ s.name = name :=
  stepRunsDecodedCommand s _ rest i hp (decodeEncodeRoundTrip i hi)

/-! ### The bytes and the record of a scalar field -/

/-- The field's type is scalar and its value in the type's range. -/
def ScalarField.Valid (f : ScalarField) : Prop := isScalar f.type ∧ fits f.type f.value

/-- The bytes a write of the field appends (41_field_coder.md R164 to R170), as `step_write` says. -/
def ScalarField.bytes (e : Endian) (f : ScalarField) : List Byte := valueBytes e (wireBytes f.type) f.value

/-- The record both logs get for the field (10_state.md R34), as `step_write` and `step_read` say. -/
def ScalarField.record (f : ScalarField) : Record := ⟨f.name, f.elem, BitVec.ofNat 16 (wireBytes f.type), f.type⟩

/-- The payload of a message. -/
def messageBytes (e : Endian) (fs : List ScalarField) : List Byte := fs.flatMap (ScalarField.bytes e)

/-- How many bytes a message takes. -/
def messageSize (fs : List ScalarField) : Nat := (fs.map fun f => wireBytes f.type).sum

@[simp] theorem ScalarField.bytes_length (e : Endian) (f : ScalarField) : (f.bytes e).length = wireBytes f.type :=
  valueBytes_length ..

theorem messageBytes_cons (e : Endian) (f : ScalarField) (fs : List ScalarField) :
    messageBytes e (f :: fs) = f.bytes e ++ messageBytes e fs := List.flatMap_cons

theorem messageSize_cons (f : ScalarField) (fs : List ScalarField) :
    messageSize (f :: fs) = wireBytes f.type + messageSize fs := by
  rw [messageSize, List.map_cons, List.sum_cons, messageSize]

@[simp] theorem messageBytes_length (e : Endian) (fs : List ScalarField) :
    (messageBytes e fs).length = messageSize fs := by
  induction fs with
  | nil => rfl
  | cons f fs ih => rw [messageBytes_cons, List.length_append, ih, f.bytes_length, messageSize_cons]

theorem scalarWidth_eq (t : FieldType) : scalarWidth t = wireBytes t := by cases t <;> rfl

theorem wireBytes_pos {t : FieldType} (h : isScalar t) : 0 < wireBytes t := by
  obtain ⟨hstring, hbytes⟩ := h
  cases t with
  | string => exact absurd rfl hstring
  | byteArray => exact absurd rfl hbytes
  | _ => decide

section
variable {t : FieldType} {e : BitVec 16} {s : State}

theorem exec_writeOf (h : isScalar t) : exec (writeOf t e) s = writeScalar t e s := by
  obtain ⟨hstring, hbytes⟩ := h
  cases t with
  | string => exact absurd rfl hstring
  | byteArray => exact absurd rfl hbytes
  | _ => rfl

theorem exec_readOf (h : isScalar t) : exec (readOf t e) s = readScalar t e s := by
  obtain ⟨hstring, hbytes⟩ := h
  cases t with
  | string => exact absurd rfl hstring
  | byteArray => exact absurd rfl hbytes
  | _ => rfl

theorem writeOf_wellFormed : (writeOf t e).wellFormed = true := by cases t <;> rfl

theorem readOf_wellFormed : (readOf t e).wellFormed = true := by cases t <;> rfl

end

/-! ### Writing the message -/

/-- The open coder session of `s` has room for the fields `fs`, which the host is about to write. The log is
never longer than the payload, so it has room where the payload has. -/
structure State.ReadyToWrite (s : State) (fs : List ScalarField) (rest : List HostMove) : Prop where
  active : s.tx.active = true
  clean : s.tx.err = 0x00#8
  size : s.mem.obuf.length + messageSize fs ≤ 2491
  log : s.tx.log.length ≤ s.mem.obuf.length
  pending : s.pending = fs.map ScalarField.writeMove ++ rest

section
variable {s : State} {f : ScalarField} {fs : List ScalarField} {rest : List HostMove}

theorem State.ReadyToWrite.room (h : s.ReadyToWrite (f :: fs) rest) (hf : f.Valid) :
    s.mem.obuf.length + wireBytes f.type + messageSize fs ≤ 2491 ∧ s.tx.log.length ≠ Config.logCap := by
  have hsize := h.size
  rw [messageSize_cons] at hsize
  have hlog := h.log
  have hpos := wireBytes_pos hf.1
  have hcap := Config.le_logCap
  omega

theorem State.ReadyToWrite.step_eq (h : s.ReadyToWrite (f :: fs) rest) (hf : f.Valid) :
    step s = .next ((s.appendField f.type f.elem (f.bytes s.tx.endian)).finish .ok false 0 0) := by
  obtain ⟨hsize, hroom⟩ := h.room hf
  obtain ⟨hscalar, hfits⟩ := hf
  obtain ⟨hstep, hdin, -⟩ := step_encode h.pending writeOf_wellFormed
  rw [hstep, exec_writeOf hscalar, writeScalar_of_fits h.active h.clean (hdin ▸ hfits), hdin, scalarWidth_eq]
  exact writeField_of_room (by rw [valueBytes_length]; omega) hroom

theorem State.ReadyToWrite.appendField (h : s.ReadyToWrite (f :: fs) rest) (hf : f.Valid) :
    ((s.appendField f.type f.elem (f.bytes s.tx.endian)).finish .ok false 0 0).ReadyToWrite fs rest := by
  have hlen : ((s.appendField f.type f.elem (f.bytes s.tx.endian)).finish .ok false 0 0).mem.obuf.length =
      s.mem.obuf.length + wireBytes f.type :=
    (s.mem.len_push_same .obuf _).trans (by rw [f.bytes_length]; rfl)
  have hlog := h.log
  have hpos := wireBytes_pos hf.1
  obtain ⟨hsize, -⟩ := h.room hf
  exact
    { active := h.active
      clean := h.clean
      size := by rwa [hlen]
      log := by
        rw [hlen, State.finish_tx, State.appendField_tx, List.length_append, List.length_singleton]
        omega
      pending := congrArg List.tail h.pending }

theorem State.ReadyToWrite.appendField_log (h : s.ReadyToWrite (f :: fs) rest) :
    (s.appendField f.type f.elem (f.bytes s.tx.endian)).tx.log = s.tx.log ++ [f.record] := by
  obtain ⟨-, -, hname⟩ := step_encode h.pending writeOf_wellFormed
  rw [State.appendField_tx, hname, f.bytes_length, ScalarField.record]

/-- The writes all succeed, and add the message's bytes to OBUF and its records to TX.LOG. -/
theorem State.ReadyToWrite.runs (h : s.ReadyToWrite fs rest) (hfs : ∀ f ∈ fs, f.Valid) :
    ∃ t, RunsOk s (fs.map fun _ => 0) t ∧ t.ReadyToWrite [] rest ∧ t.tx.endian = s.tx.endian ∧
      t.mem.obuf = s.mem.obuf ++ messageBytes s.tx.endian fs ∧
      t.tx.log = s.tx.log ++ fs.map ScalarField.record := by
  induction fs generalizing s with
  | nil => exact ⟨s, .done s, h, rfl, (List.append_nil _).symm, (List.append_nil _).symm⟩
  | cons f fs ih =>
    obtain ⟨hf, hfs⟩ := List.forall_mem_cons.1 hfs
    obtain ⟨t, hruns, ht, hend, hobuf, hlog⟩ := ih (h.appendField hf) hfs
    refine ⟨t, .answer (h.step_eq hf) hruns, ht, hend, hobuf.trans ?_, hlog.trans ?_⟩
    · rw [messageBytes_cons, ← List.append_assoc]
      rfl
    · rw [State.finish_tx, h.appendField_log, List.map_cons, List.append_assoc, List.singleton_append]

end

/-! ### Reading it back -/

theorem decLittle_encLittle_mod (w v : Nat) : decLittle (encLittle w v) = v % 256 ^ w := by
  induction w generalizing v with
  | zero => exact (Nat.mod_one v).symm
  | succ w ih => 
    rw [encLittle, decLittle, ih, BitVec.toNat_ofNat, pow_succ' 256]
    exact Nat.mod_mul.symm

/-- The bytes of a value give its low bits back, in either byte order. -/
theorem dec_valueBytes (e : Endian) (w : Nat) (v : BitVec 64) : dec e (valueBytes e w v) = v.toNat % 256 ^ w := by
  rw [← enc_eq_valueBytes]
  cases e with
  | little => exact decLittle_encLittle_mod w v.toNat
  | big => exact (congrArg decLittle (List.reverse_reverse _)).trans (decLittle_encLittle_mod w v.toNat)

theorem ofNat_toNat_mod (v : BitVec 64) (k : Nat) : BitVec.ofNat k (v.toNat % 2 ^ k) = v.extractLsb' 0 k :=
  BitVec.eq_of_toNat_eq (by rw [BitVec.toNat_ofNat, Nat.mod_mod, BitVec.extractLsb'_toNat, Nat.shiftRight_zero])

/-- A value in its type's range is what a read makes of its low bytes. -/
theorem extend_toNat_mod {t : FieldType} {v : BitVec 64} (ht : isScalar t) (hv : fits t v) :
    extend t (v.toNat % 256 ^ wireBytes t) = v := by
  have hwide : BitVec.ofNat 64 v.toNat = v := by rw [BitVec.ofNat_toNat, BitVec.setWidth_eq]
  cases t with
  | byte | ushort | uint =>
    have hlt := Nat.lt_succ_of_le hv
    exact (congrArg (extend _) (Nat.mod_eq_of_lt hlt)).trans ((extend_eq_widened hlt).trans hwide)
  | short =>
    exact (congrArg (BitVec.signExtend 64) (ofNat_toNat_mod v 16)).trans
      (beq_iff_eq.1 ((inRange_iff_fits .short v).2 hv)).symm
  | int =>
    exact (congrArg (BitVec.signExtend 64) (ofNat_toNat_mod v 32)).trans
      (beq_iff_eq.1 ((inRange_iff_fits .int v).2 hv)).symm
  | long | double => exact (congrArg (BitVec.ofNat 64) (Nat.mod_eq_of_lt v.isLt)).trans hwide
  | string => exact absurd rfl ht.1
  | byteArray => exact absurd rfl ht.2

/-- The decoder session of `s` stands before the bytes of the fields `fs`, the last of its payload, which the
host is about to read. Every record logged stands for a byte behind the cursor, so the log has room where the
payload has bytes left. -/
structure State.ReadyToRead (s : State) (fs : List ScalarField) : Prop where
  valid : s.rx.valid = true
  payload : ∃ pre, pre.length = s.rx.off.toNat ∧ pre ++ messageBytes s.rx.endian fs <+: s.mem.ibuf
  stop : s.rx.endOff.toNat = s.rx.off.toNat + messageSize fs
  size : s.rx.endOff.toNat ≤ 2499
  log : 8 + s.rx.log.length ≤ s.rx.off.toNat
  pending : s.pending = fs.map ScalarField.readMove

section
variable {s : State} {f : ScalarField} {fs : List ScalarField}

theorem State.ReadyToRead.value_eq (h : s.ReadyToRead (f :: fs)) (hf : f.Valid) :
    extend f.type (s.cursorValue (scalarWidth f.type)) = f.value := by
  obtain ⟨pre, hpre, hbytes⟩ := h.payload
  rw [messageBytes_cons, ← List.append_assoc] at hbytes
  have hread : s.mem.read .ibuf s.rx.off.toNat (wireBytes f.type) = f.bytes s.rx.endian :=
    Memory.read_of_isPrefix ((List.prefix_append ..).trans hbytes) hpre (f.bytes_length _)
  rw [scalarWidth_eq, State.cursorValue, hread, ScalarField.bytes, dec_valueBytes, extend_toNat_mod hf.1 hf.2]

theorem State.ReadyToRead.room (h : s.ReadyToRead (f :: fs)) (hf : f.Valid) :
    s.rx.endOff.toNat = s.rx.off.toNat + wireBytes f.type + messageSize fs ∧ s.rx.log.length ≠ Config.logCap := by
  have hstop := h.stop
  rw [messageSize_cons] at hstop
  have hsize := h.size
  have hlog := h.log
  have hpos := wireBytes_pos hf.1
  have hcap := Config.le_logCap
  omega

theorem State.ReadyToRead.step_eq (h : s.ReadyToRead (f :: fs)) (hf : f.Valid) :
    step s = .next ((s.consume f.type f.elem (wireBytes f.type)).finish .ok false f.value 0) := by
  obtain ⟨hstep, -, -⟩ := step_encode h.pending readOf_wellFormed
  obtain ⟨hstop, hroom⟩ := h.room hf
  rw [hstep, exec_readOf hf.1, readScalar_of_open h.valid, ← s.extend_cursorValue, h.value_eq hf, scalarWidth_eq]
  exact readField_of_room (by omega) hroom

theorem State.ReadyToRead.consume (h : s.ReadyToRead (f :: fs)) (hf : f.Valid) :
    ((s.consume f.type f.elem (wireBytes f.type)).finish .ok false f.value 0).ReadyToRead fs := by
  obtain ⟨pre, hpre, hbytes⟩ := h.payload
  rw [messageBytes_cons, ← List.append_assoc] at hbytes
  obtain ⟨hstop, -⟩ := h.room hf
  have hsize := h.size
  have hlog := h.log
  have hpos := wireBytes_pos hf.1
  have hoff : (BitVec.ofNat 16 (s.rx.off.toNat + wireBytes f.type)).toNat = s.rx.off.toNat + wireBytes f.type :=
    toNat_ofNat16 (by omega)
  exact
    { valid := h.valid
      payload := by
        refine ⟨pre ++ f.bytes s.rx.endian, ?_, hbytes⟩
        rw [List.length_append, f.bytes_length, hpre, State.finish_rx, State.consume_rx, hoff]
      stop := by rwa [State.finish_rx, State.consume_rx, hoff]
      size := h.size
      log := by
        rw [State.finish_rx, State.consume_rx, hoff, List.length_append, List.length_singleton]
        omega
      pending := congrArg List.tail h.pending }

theorem State.ReadyToRead.consume_log (h : s.ReadyToRead (f :: fs)) :
    (s.consume f.type f.elem (wireBytes f.type)).rx.log = s.rx.log ++ [f.record] := by
  obtain ⟨-, -, hname⟩ := step_encode h.pending readOf_wellFormed
  rw [State.consume_rx, hname, ScalarField.record]

theorem State.ReadyToRead.off_eq_endOff (h : s.ReadyToRead []) : s.rx.off = s.rx.endOff :=
  BitVec.eq_of_toNat_eq h.stop.symm

/-- The reads all succeed, answer the values, and add the message's records to RX.LOG. -/
theorem State.ReadyToRead.runs (h : s.ReadyToRead fs) (hfs : ∀ f ∈ fs, f.Valid) :
    ∃ t, RunsOk s (fs.map ScalarField.value) t ∧ t.ReadyToRead [] ∧
      t.rx.log = s.rx.log ++ fs.map ScalarField.record := by
  induction fs generalizing s with
  | nil => exact ⟨s, .done s, h, (List.append_nil _).symm⟩
  | cons f fs ih =>
    obtain ⟨hf, hfs⟩ := List.forall_mem_cons.1 hfs
    obtain ⟨t, hruns, ht, hlog⟩ := ih (h.consume hf) hfs
    refine ⟨t, .answer (h.step_eq hf) hruns, ht, hlog.trans ?_⟩
    rw [State.finish_rx, h.consume_log, List.map_cons, List.append_assoc, List.singleton_append]

end

/-! ### The frame between them -/

/-- The payload of a frame stands at byte 8. -/
theorem prefix_buildFrame (e : Endian) (tag : Byte) (seq : BitVec 16) (errc : Byte) (p : List Byte) :
    ∃ pre, pre.length = 8 ∧ pre ++ p <+: buildFrame e tag seq errc p := by
  refine ⟨headerBytes e tag seq errc p.length ++ [xor8 (headerBytes e tag seq errc p.length)], by simp, ?_⟩
  rw [buildFrame_eq, List.prefix_append_right_inj]
  split
  · next h => exact h ▸ List.prefix_rfl
  · exact List.prefix_append ..

/-- The session FRAME_DECODE opens on the frame of a message stands before the message's bytes. -/
theorem readyToRead_openSession {u : State} {fs : List ScalarField} {h : Header} {d : BitVec 64} {pre : List Byte}
    (hpre : pre.length = 8) (hbytes : pre ++ messageBytes u.cfgEndian fs <+: u.mem.ibuf)
    (hdsize : h.dsize = messageSize fs) (hsize : messageSize fs ≤ 2491)
    (hp : u.pending.tail = fs.map ScalarField.readMove) :
    ((u.startDecode.openSession h).finish .ok false d 0).ReadyToRead fs := by
  have hend : (BitVec.ofNat 16 (8 + h.dsize)).toNat = 8 + messageSize fs := by
    rw [hdsize]
    exact toNat_ofNat16 (by omega)
  exact
    { valid := rfl
      payload := ⟨pre, hpre, hbytes⟩
      stop := hend
      size := hend.trans_le (by omega)
      log := Nat.le_refl 8
      pending := hp }

/-- FRAME_DECODE of a frame built around a message, then its reads. -/
theorem runs_of_frame {u : State} {fs : List ScalarField} {tag : Byte} {seq : BitVec 16} {errc : Byte}
    (hfs : ∀ f ∈ fs, f.Valid) (hsize : messageSize fs ≤ 2491)
    (hframe : u.mem.ibuf = buildFrame u.cfgEndian tag seq errc (messageBytes u.cfgEndian fs))
    (hp : u.pending = plainMove .frameDecode :: fs.map ScalarField.readMove) :
    ∃ v, RunsOk u (BitVec.ofNat 64 (messageSize fs) :: fs.map ScalarField.value) v ∧
      v.rx.log = fs.map ScalarField.record ∧ v.rx.off = v.rx.endOff := by
  have hcheck : checkFrame u.mem u.cfgEndian =
      .ok (builtHeader u.cfgEndian tag seq errc (messageBytes u.cfgEndian fs)) :=
    checkFrame_buildFrame (hframe ▸ List.prefix_rfl) (by rwa [messageBytes_length])
  have hdsize : (builtHeader u.cfgEndian tag seq errc (messageBytes u.cfgEndian fs)).dsize = messageSize fs :=
    messageBytes_length ..
  obtain ⟨hstep, -, -⟩ := step_encode hp rfl
  have hfirst := hstep.trans (execFrameDecode_of_ok hcheck)
  rw [hdsize] at hfirst
  obtain ⟨pre, hpre, hbytes⟩ := prefix_buildFrame u.cfgEndian tag seq errc (messageBytes u.cfgEndian fs)
  have hready := readyToRead_openSession (d := BitVec.ofNat 64 (messageSize fs)) hpre (hframe ▸ hbytes) hdsize hsize
    (congrArg List.tail hp)
  obtain ⟨v, hreads, hv, hlog⟩ := hready.runs hfs
  exact ⟨v, .answer hfirst hreads, hlog, hv.off_eq_endOff⟩

/-- The writes of a message into an empty session, then FRAME_ENCODE: the frame is built around the message. -/
theorem runs_to_frame {s : State} {fs : List ScalarField} (hfs : ∀ f ∈ fs, f.Valid)
    (h : s.ReadyToWrite fs [plainMove .frameEncode]) (hobuf : s.mem.obuf = []) (hlog : s.tx.log = []) :
    ∃ d t, RunsOk s ((fs.map fun _ => 0) ++ [d]) t ∧ t.tx.log = fs.map ScalarField.record ∧
      ∃ tag seq errc, t.mem.fbuf = buildFrame s.tx.endian tag seq errc (messageBytes s.tx.endian fs) := by
  obtain ⟨w, hwrites, hw, hend, hwobuf, hwlog⟩ := h.runs hfs
  obtain ⟨hstep, -, -⟩ := step_encode hw.pending rfl
  have hlast := hstep.trans (exec_frameEncode_of_open hw.active hw.clean)
  rw [hobuf, List.nil_append] at hwobuf
  rw [hlog, List.nil_append] at hwlog
  exact ⟨_, _, hwrites.append (.of_step hlast), hwlog, w.tx.typeTag, w.tx.seq, w.tx.errc,
    by rw [← hwobuf, ← hend]; rfl⟩

/-- Settles O60: the two runs (`runs_to_frame`, `runs_of_frame`) meet in the frame of the message's bytes, and
both logs hold the message's records. -/
theorem scalarMessageRoundTrip : Obligations.ScalarMessageRoundTrip := by
  intro fs s hfs hsize ha he hobuf hlog hp
  have hready : s.ReadyToWrite fs [plainMove .frameEncode] :=
    { active := ha
      clean := he
      size := by rwa [hobuf, List.length_nil, Nat.zero_add]
      log := by rw [hlog]; exact Nat.zero_le _
      pending := hp }
  obtain ⟨d, t, hruns, htlog, tag, seq, errc, hfbuf⟩ := runs_to_frame hfs hready hobuf hlog
  obtain ⟨hsteps, hcauses, -⟩ := hruns.observed (n := fs.length + 1) (by simp)
  refine ⟨t, hsteps, hcauses, fun u hu hend hpu => ?_⟩
  obtain ⟨v, hruns', hvlog, hoff⟩ := runs_of_frame hfs hsize (by rw [hu, hfbuf, hend]) hpu
  obtain ⟨hsteps', hcauses', hdouts⟩ := hruns'.observed (n := fs.length + 1) (by simp)
  exact ⟨v, hsteps', hcauses', hdouts, hvlog.trans htlog.symm, hoff⟩

end Sys2Proof.Machine
end

section
/-! PROOFS. The factory (43_factory.md): what FAC_REGISTER leaves at each tag, what FAC_DISPATCH does with a
registered and with an unregistered tag, and which handler it reports. -/

namespace Sys2Proof.Machine

/-! ### The registry -/

@[simp] theorem State.entry_finish (s : State) (c : Cause) (nh : Bool) (d : BitVec 64) (a : BitVec 16) (t : Byte) :
    (s.finish c nh d a).entry t = s.entry t := rfl

@[simp] theorem State.entry_register_same (s : State) (t : Byte) (h : BitVec 16) :
    (s.register t h).entry t = ⟨true, h⟩ := Vector.getElem_set_self _

theorem State.entry_register_of_ne {t t' : Byte} (hne : t' ≠ t) (s : State) (h : BitVec 16) :
    (s.register t h).entry t' = s.entry t' := by
  have hidx : t.toNat ≠ t'.toNat := fun heq => hne (BitVec.eq_of_toNat_eq heq.symm)
  exact Vector.getElem_set_ne t.toFin.isLt t'.toFin.isLt hidx

theorem exec_facRegister (s : State) (t : Byte) (h : BitVec 16) :
    exec (.facRegister t h) s = .next ((s.register t h).finish .ok false 0 0) := rfl

/-- Settles O46: the registry holds the handler at the tag and its old entries elsewhere. -/
theorem facRegisterSetsTheEntry : Obligations.FacRegisterSetsTheEntry :=
  ⟨OpRow.hasEncoding_of_find? (op := 0x40#8) rfl, fun s t h =>
    ⟨_, exec_facRegister s t h, s.entry_register_same t h, fun _ hne => State.entry_register_of_ne hne s h, rfl⟩⟩

/-! ### A dispatch -/

section
variable {s : State}

theorem exec_facDispatch_of_accepted (hlen : 8 ≤ s.mem.ibuf.length)
    (hv : (s.entry (s.mem.byte .ibuf 1)).valid = true) (hf : s.frameFault = none) :
    exec .facDispatch s = .next (({ s.foundHandler with rx := s.acceptedRx } : State).answered .ok
      ((s.entry (s.mem.byte .ibuf 1)).handler.setWidth 64) 1) := by
  have hc : checkFrame s.mem s.cfgEndian = .ok s.acceptedHeader := by rw [checkFrame_eq, hf]; rfl
  exact (execFacDispatch_of_known hlen hv).trans (dispatchFound_of_ok (s := s.foundHandler) hc)

theorem exec_facDispatch_of_fault {c : Cause} (hlen : 8 ≤ s.mem.ibuf.length)
    (hv : (s.entry (s.mem.byte .ibuf 1)).valid = true) (hf : s.frameFault = some c) :
    exec .facDispatch s = .next (({ s.foundHandler with rx := s.rejectedRx c } : State).answered c
      ((s.entry (s.mem.byte .ibuf 1)).handler.setWidth 64) 1) := by
  have hc : checkFrame s.mem s.cfgEndian = .error c := by rw [checkFrame_eq, hf]; rfl
  exact (execFacDispatch_of_known hlen hv).trans (dispatchFound_of_error (s := s.foundHandler) hc)

/-- A dispatch of a registered tag reports the tag's handler, whatever the verdict on the frame (R221). -/
theorem exec_facDispatch_reports {t : Byte} {h : BitVec 16} (hlen : 8 ≤ s.mem.ibuf.length)
    (htag : s.mem.byte .ibuf 1 = t) (hentry : s.entry t = ⟨true, h⟩) :
    ∃ u r, exec .facDispatch s = .next u ∧ u.response = some r ∧ u.fac = ⟨true, t, true, h⟩ ∧
      r.dout = h.setWidth 64 ∧ r.daux = 1 ∧ r.noHandler = false := by
  subst htag
  have hv : (s.entry (s.mem.byte .ibuf 1)).valid = true := by rw [hentry]
  have hh : (s.entry (s.mem.byte .ibuf 1)).handler = h := by rw [hentry]
  subst hh
  cases hf : s.frameFault with
  | none =>
    exact ⟨_, _, exec_facDispatch_of_accepted hlen hv hf, rfl, rfl, rfl, rfl, Response.noHandler_statusWord ..⟩
  | some c =>
    exact ⟨_, _, exec_facDispatch_of_fault hlen hv hf, rfl, rfl, rfl, rfl, Response.noHandler_statusWord ..⟩

end

/-- Settles O47: the length check, the lookup and then the verdict `State.frameFault` of FRAME_DECODE, in that
order, each with the writes the statement lists. -/
theorem facDispatchLooksUpThenDecodes : Obligations.FacDispatchLooksUpThenDecodes :=
  ⟨OpRow.hasEncoding_of_find? (op := 0x41#8) rfl, fun _ =>
    ⟨execFacDispatch_of_short, fun hlen =>
      ⟨execFacDispatch_of_unknown hlen, exec_facDispatch_of_accepted hlen,
        fun hv _ => exec_facDispatch_of_fault hlen hv⟩⟩⟩

/-- Settles O48: the second registration set the tag's entry, the one of the other tag left it, and a dispatch
reports what the entry holds. -/
theorem lastRegistrationWins : Obligations.LastRegistrationWins := by
  intro s s1 s2 s3 t t' h h' h'' hne h1 h2 h3 hlen htag
  cases h1
  cases h2
  cases h3
  refine exec_facDispatch_reports hlen htag ?_
  rw [State.entry_finish, State.entry_register_of_ne hne.symm, State.entry_finish, State.entry_register_same]

end Sys2Proof.Machine
end

section
/-! PROOFS. The control family (44_control.md): the register map RD_REG reads (10_state.md R36), the byte-order
selector, the header setters, and what SRESET answers. -/

namespace Sys2Proof.Machine

/-! ### Fields packed into a word -/

theorem place_eq_ofNat (n lo : Nat) {w : Nat} (v : BitVec w) : place n lo v = BitVec.ofNat n (v.toNat * 2 ^ lo) := by
  apply BitVec.eq_of_toNat_eq
  rw [place, BitVec.toNat_shiftLeft, BitVec.toNat_setWidth, BitVec.toNat_ofNat, Nat.shiftLeft_eq, Nat.mod_mul_mod]

/-- A field at bit `lo` above a number that ends below that bit: the two do not overlap. -/
theorem place_or_ofNat {n lo w m : Nat} (v : BitVec w) (h : m < 2 ^ lo) :
    place n lo v ||| BitVec.ofNat n m = BitVec.ofNat n (v.toNat * 2 ^ lo + m) := by
  rw [place_eq_ofNat, ← BitVec.ofNat_or, ← Nat.shiftLeft_eq, Nat.shiftLeft_add_eq_or_of_lt h]

theorem bit_toNat (b : Bool) : (bit b).toNat = bitNumber b := by cases b <;> rfl

theorem endianBit_toNat (e : Endian) : (endianBit e).toNat = endianNumber e := by cases e <;> rfl

theorem bitNumber_le (b : Bool) : bitNumber b ≤ 1 := by cases b <;> decide

theorem endianNumber_le (e : Endian) : endianNumber e ≤ 1 := by cases e <;> decide

/-! ### The register map -/

theorem ctrlBits_eq_ofNat (flag : Bool) (e : Endian) (err : BitVec 8) :
    ctrlBits flag e err = BitVec.ofNat 64 (bitNumber flag + 2 * endianNumber e + 256 * err.toNat) := by
  have hflag := bitNumber_le flag
  have hend := endianNumber_le e
  rw [ctrlBits, place_eq_ofNat 64 0, BitVec.or_assoc, bit_toNat, place_or_ofNat _ (by omega), endianBit_toNat,
    place_or_ofNat _ (by omega)]
  congr 1
  omega

theorem facBits_eq_ofNat (f : Fac) :
    facBits f = BitVec.ofNat 64
      (f.tag.toNat + 256 * bitNumber f.found + 512 * bitNumber f.done + 65536 * f.handler.toNat) := by
  have htag := f.tag.isLt
  have hfound := bitNumber_le f.found
  have hdone := bitNumber_le f.done
  rw [facBits, place_eq_ofNat 64 0, BitVec.or_assoc, BitVec.or_assoc, place_or_ofNat _ (by omega), bit_toNat,
    place_or_ofNat _ (by omega), bit_toNat, place_or_ofNat _ (by omega)]
  congr 1
  omega

theorem count16_eq_ofNat (n : Nat) : count16 n = BitVec.ofNat 64 (n % 65536) := (BitVec.ofNat_toNat ..).symm

/-- The map has no register at the numbers R245 leaves out. -/
theorem regValue_eq_none {s : State} {r : BitVec 8}
    (h : ¬ (r.toNat ≤ 0x0B ∨ 0x10 ≤ r.toNat ∧ r.toNat ≤ 0x19 ∨ r.toNat = 0x20)) : regValue s r = none := by
  unfold regValue
  split
  case h_24 => rfl
  all_goals omega

/-! ### RD_REG -/

namespace RdReg

section
variable {s : State} {r : BitVec 8}

theorem exec_of_none (h : regValue s r = none) : exec (.rdReg r) s = .next (s.answered .illegal 0 0) := by
  simp only [exec, execRdReg, h]
  rfl

theorem exec_of_some {v : BitVec 64} {n : Nat} (h : regValue s r = some v) (hv : v = BitVec.ofNat 64 n) :
    exec (.rdReg r) s = .next (s.answered .ok (BitVec.ofNat 64 n) 0) := by
  subst hv
  simp only [exec, execRdReg, h]
  rfl

/-- A register read as it stands. -/
theorem exec_of_field {w : Nat} {v : BitVec w} (h : regValue s r = some (v.setWidth 64)) :
    exec (.rdReg r) s = .next (s.answered .ok (BitVec.ofNat 64 v.toNat) 0) :=
  exec_of_some h (BitVec.ofNat_toNat ..).symm

theorem exec_of_endian {e : Endian} (h : regValue s r = some ((endianBit e).setWidth 64)) :
    exec (.rdReg r) s = .next (s.answered .ok (BitVec.ofNat 64 (endianNumber e)) 0) :=
  endianBit_toNat e ▸ exec_of_field h

/-- A length or a count, read in 16 bits. -/
theorem exec_of_count {n : Nat} (h : regValue s r = some (count16 n)) :
    exec (.rdReg r) s = .next (s.answered .ok (BitVec.ofNat 64 (n % 65536)) 0) :=
  exec_of_some h (count16_eq_ofNat n)

/-- TX_CTRL and RX_CTRL. -/
theorem exec_of_ctrl {flag : Bool} {e : Endian} {err : BitVec 8} (h : regValue s r = some (ctrlBits flag e err)) :
    exec (.rdReg r) s =
      .next (s.answered .ok (BitVec.ofNat 64 (bitNumber flag + 2 * endianNumber e + 256 * err.toNat)) 0) :=
  exec_of_some h (ctrlBits_eq_ofNat flag e err)

end

end RdReg

section
open RdReg

/-- Settles O19, register by register: CFG and the TX channel, the buffers' lengths, the RX channel, the last
dispatch; at the other numbers `regValue` has none. -/
theorem rdRegAnswersTheRegisterMap : Obligations.RdRegAnswersTheRegisterMap := by
  refine ⟨OpRow.hasEncoding_of_find? (op := 0x05#8) rfl, fun s =>
    ⟨?_, fun r hr => exec_of_none (regValue_eq_none hr)⟩⟩
  simp only [List.forall_mem_cons]
  exact ⟨exec_of_endian rfl, exec_of_field rfl, exec_of_field rfl, exec_of_field rfl, exec_of_ctrl rfl,
    exec_of_count rfl, exec_of_count rfl, exec_of_field rfl, exec_of_field rfl,
    exec_of_count rfl, exec_of_count rfl, exec_of_count rfl,
    exec_of_ctrl rfl, exec_of_field rfl, exec_of_field rfl, exec_of_field rfl, exec_of_field rfl, exec_of_field rfl,
    exec_of_field rfl, exec_of_field rfl, exec_of_field rfl, exec_of_count rfl,
    exec_of_some rfl (facBits_eq_ofNat s.fac), List.forall_mem_nil _⟩

end

/-! ### NOP, the setters and SRESET -/

/-- Settles O16: NOP is `State.respond` on the state as it is. -/
theorem nopOnlyAnswers : Obligations.NopOnlyAnswers :=
  ⟨OpRow.hasEncoding_of_find? (op := 0x00#8) rfl, fun _ => rfl⟩

/-- A selector with its must-be-zero bits clear is its bit 0 (30_encoding.md R92). -/
theorem toNat_lt_two_of_selectorOk {a : BitVec 8} (h : selectorOk a = true) : a.toNat < 2 := by
  have hbit : a = a &&& 1#8 :=
    calc a = a &&& (0xFE#8 ||| 1#8) := BitVec.and_allOnes.symm
      _ = a &&& 0xFE#8 ||| a &&& 1#8 := BitVec.and_or_distrib_left
      _ = a &&& 1#8 := by rw [selectorOk_iff.1 h, BitVec.zero_or]
  rw [hbit, BitVec.toNat_and]
  exact Nat.lt_succ_of_le Nat.and_le_right

theorem exec_setEndian_of_bad_selector {a : BitVec 8} (s : State) (h : selectorOk a = false) :
    exec (.setEndian a) s = .next (s.answered .illegal 0 0) := by
  simp only [exec, execSetEndian, h]
  rfl

/-- Settles O17: the two selectors are evaluated; a larger one has a must-be-zero bit set. -/
theorem setEndianWritesSelector : Obligations.SetEndianWritesSelector := by
  refine ⟨OpRow.hasEncoding_of_find? (op := 0x01#8) rfl, fun _ => rfl, fun _ => rfl, fun s a ha => ?_⟩
  have hbad : ¬ selectorOk a = true := fun hok => absurd (toNat_lt_two_of_selectorOk hok) (Nat.not_lt.2 ha)
  exact exec_setEndian_of_bad_selector s (Bool.eq_false_of_not_eq_true hbad)

/-- Settles O18: each setter is `State.respond` after the one write. -/
theorem headerSettersWriteTheirRegister : Obligations.HeaderSettersWriteTheirRegister :=
  ⟨OpRow.hasEncoding_of_find? (op := 0x02#8) rfl, OpRow.hasEncoding_of_find? (op := 0x03#8) rfl,
    OpRow.hasEncoding_of_find? (op := 0x04#8) rfl, fun _ => ⟨fun _ => rfl, fun _ => rfl, fun _ => rfl⟩⟩

/-- At reset every session flag is 0 (10_state.md R37). -/
theorem statusWord_reset : statusWord .ok false State.reset.tx State.reset.rx = 0x00000000#32 := by decide

theorem exec_sreset (s : State) : exec .sreset s = .next (s.resetBlock.finish .ok false 0 0) := rfl

/-- Settles O20: the response is taken after the reset, so that it reports the flags of the reset state. -/
theorem sresetResetsTheBlock : Obligations.SresetResetsTheBlock := by
  refine ⟨OpRow.hasEncoding_of_find? (op := 0x0F#8) rfl, fun s => ⟨_, exec_sreset s, rfl, rfl, ?_⟩⟩
  rw [State.finish_response, State.resetBlock_tx, State.resetBlock_rx, statusWord_reset]

end Sys2Proof.Machine
end

section
/-! PROOFS. The buffer family (45_buffers.md): STAGE and IBUF are emptied or grow by one byte unless they are full,
an indexed read answers the byte it finds, and LOG_READ the record it finds, packed into one word. -/

namespace Sys2Proof.Machine

section
variable {s : State}

/-! ### The writers of STAGE and IBUF -/

theorem execStgPush_of_full {b : Byte} (h : s.mem.stage.length = 2491) : execStgPush b s = s.raise .overflow := if_pos h

theorem execStgPush_of_room {b : Byte} (h : s.mem.stage.length ≠ 2491) :
    execStgPush b s = ({ s with mem := s.mem.push .stage [b] } : State).respond 0 0 := if_neg h

theorem execInPush_of_full {b : Byte} (h : s.mem.ibuf.length = 2500) : execInPush b s = s.raise .overflow := if_pos h

theorem execInPush_of_room {b : Byte} (h : s.mem.ibuf.length ≠ 2500) :
    execInPush b s = ({ s with mem := s.mem.push .ibuf [b] } : State).rxClear.respond 0 0 := if_neg h

/-! ### Indexed reads -/

theorem readIndexed_of_getElem? {sp : Space} {i : BitVec 16} {b : Byte} (h : (s.mem.get sp)[i.toNat]? = some b) :
    readIndexed sp i s = .next (s.answered .ok (BitVec.ofNat 64 b.toNat) 0) := by
  rw [BitVec.ofNat_toNat]
  exact readIndexed_of_some h

theorem readIndexed_of_len_le {sp : Space} {i : BitVec 16} (h : s.mem.len sp ≤ i.toNat) :
    readIndexed sp i s = .next (s.answered .bounds 0 0) := readIndexed_of_none (List.getElem?_eq_none h)

/-! ### Log records -/

theorem logRecord_of_pos {log : List Record} {k : BitVec 16} (h : 1 ≤ k.toNat) :
    logRecord log k = log[k.toNat - 1]? := by
  have hk : k ≠ 0#16 := fun h0 => absurd h (by rw [h0]; decide)
  exact if_neg hk

/-- The indices outside a log (45_buffers.md R266). -/
theorem logRecord_eq_none {log : List Record} {k : BitVec 16} (h : k.toNat = 0 ∨ log.length < k.toNat) :
    logRecord log k = none := by
  obtain h0 | hlt := h
  · exact if_pos (BitVec.eq_of_toNat_eq h0)
  · rw [logRecord_of_pos (by omega), List.getElem?_eq_none (by omega)]

/-- NAME, SIZE and ELEM do not overlap in the record's word (30_encoding.md R103). -/
theorem recordWord_eq_ofNat (r : Record) :
    recordWord r = BitVec.ofNat 64 (r.name.toNat * 2 ^ 32 + r.size.toNat * 2 ^ 16 + r.elem.toNat) := by
  have hsize := r.size.isLt
  have helem := r.elem.isLt
  rw [recordWord, place_eq_ofNat 64 0, BitVec.or_assoc, place_or_ofNat _ (by omega), place_or_ofNat _ (by omega),
    Nat.pow_zero, Nat.mul_one, Nat.add_assoc]

theorem typeCode_eq_ofNat (t : FieldType) : (typeCode t).setWidth 16 = BitVec.ofNat 16 (typeNumber t) := by
  cases t <;> rfl

/-! ### LOG_READ -/

theorem selectorOk_eq_false_of_two_le {a : BitVec 8} (h : 2 ≤ a.toNat) : selectorOk a = false :=
  Bool.eq_false_of_not_eq_true fun hok => absurd (toNat_lt_two_of_selectorOk hok) (Nat.not_lt.2 h)

theorem execLogRead_of_bad_selector {a : BitVec 8} {k : BitVec 16} (ha : selectorOk a = false) :
    execLogRead a k s = s.raise .illegal := by
  simp only [execLogRead, ha, Bool.false_eq_true, if_false]

section
variable {a : BitVec 8} {log : List Record} {k : BitVec 16}

theorem execLogRead_of_some (ha : selectorOk a = true) (hlog : (if a.getLsbD 0 then s.rx.log else s.tx.log) = log)
    {r : Record} (h : logRecord log k = some r) :
    execLogRead a k s = s.respond (recordWord r) ((typeCode r.type).setWidth 16) := by
  simp only [execLogRead, ha, hlog, h, if_true]

theorem execLogRead_of_none (ha : selectorOk a = true) (hlog : (if a.getLsbD 0 then s.rx.log else s.tx.log) = log)
    (h : logRecord log k = none) : execLogRead a k s = s.raise .bounds := by
  simp only [execLogRead, ha, hlog, h, if_true]

/-- LOG_READ with a legal selector, on the log it selects. -/
theorem exec_logRead_of_selected (ha : selectorOk a = true)
    (hlog : (if a.getLsbD 0 then s.rx.log else s.tx.log) = log) :
    (∀ r, 1 ≤ k.toNat → log[k.toNat - 1]? = some r → exec (.logRead a k) s =
      .next (s.answered .ok (BitVec.ofNat 64 (r.name.toNat * 2 ^ 32 + r.size.toNat * 2 ^ 16 + r.elem.toNat))
        (BitVec.ofNat 16 (typeNumber r.type)))) ∧
    (k.toNat = 0 ∨ log.length < k.toNat → exec (.logRead a k) s = .next (s.answered .bounds 0 0)) := by
  refine ⟨fun r hk hr => ?_, fun hk => execLogRead_of_none ha hlog (logRecord_eq_none hk)⟩
  rw [← recordWord_eq_ofNat, ← typeCode_eq_ofNat]
  exact execLogRead_of_some ha hlog ((logRecord_of_pos hk).trans hr)

end

end

/-! ### The statements -/

/-- Settles O21: STG_CLEAR is `State.respond` after the one write. -/
theorem stgClearEmptiesStage : Obligations.StgClearEmptiesStage :=
  ⟨OpRow.hasEncoding_of_find? (op := 0x10#8) rfl, fun _ => rfl⟩

/-- Settles O22: STG_PUSH tests STAGE for its capacity and then appends. -/
theorem stgPushAppendsOrOverflows : Obligations.StgPushAppendsOrOverflows :=
  ⟨OpRow.hasEncoding_of_find? (op := 0x11#8) rfl, fun _ _ => ⟨execStgPush_of_full, execStgPush_of_room⟩⟩

/-- Settles O23: `Rx.cleared` leaves the channel R41 lists. -/
theorem inClearEmptiesInput : Obligations.InClearEmptiesInput :=
  ⟨OpRow.hasEncoding_of_find? (op := 0x12#8) rfl, fun _ => rfl⟩

/-- Settles O24: a full IBUF is tested for before the append and RX_CLEAR, so that the session stays open. -/
theorem inPushAppendsOrOverflows : Obligations.InPushAppendsOrOverflows :=
  ⟨OpRow.hasEncoding_of_find? (op := 0x13#8) rfl, fun _ _ => ⟨execInPush_of_full, execInPush_of_room⟩⟩

/-- Settles O25: both commands are `readIndexed`, on IBUF and on FBUF. -/
theorem indexedReadsAnswerTheByte : Obligations.IndexedReadsAnswerTheByte :=
  ⟨OpRow.hasEncoding_of_find? (op := 0x14#8) rfl, OpRow.hasEncoding_of_find? (op := 0x15#8) rfl, fun _ _ =>
    ⟨fun _ => readIndexed_of_getElem? (sp := .ibuf), readIndexed_of_len_le (sp := .ibuf),
      fun _ => readIndexed_of_getElem? (sp := .fbuf), readIndexed_of_len_le (sp := .fbuf)⟩⟩

/-- Settles O26: each of the two selectors is legal and selects its log. -/
theorem logReadAnswersTheRecord : Obligations.LogReadAnswersTheRecord := by
  refine ⟨OpRow.hasEncoding_of_find? (op := 0x16#8) rfl, fun s k => ?_⟩
  simp only [List.forall_mem_cons]
  exact ⟨exec_logRead_of_selected rfl rfl, exec_logRead_of_selected rfl rfl, List.forall_mem_nil _⟩

/-- Settles O27: a selector of 2 or more has a must-be-zero bit set. -/
theorem logReadSelectorIsChecked : Obligations.LogReadSelectorIsChecked := by
  intro s a k ha
  exact execLogRead_of_bad_selector (selectorOk_eq_false_of_two_le ha)

end Sys2Proof.Machine
end

section
/-! PROOFS. The step as the host sees it (60_exceptions.md sections 5 to 7): what it does with each move at the
port, one response per command along a run, and the answer to a word that is no command (R290). -/

namespace Sys2Proof.Machine

/-! ### Each move at the port -/

section
variable {s : State} {c : Command} {rest : List HostMove}

theorem step_of_pending_nil (hp : s.pending = []) : step s = .next s.idle := by
  have hpres : s.presented = .nothing := by simp only [State.presented, hp]
  simp only [step, hpres]

theorem step_of_pending_reset (hp : s.pending = .reset :: rest) : step s = .next s.takeReset := by
  have hpres : s.presented = .resetEvent := by simp only [State.presented, hp]
  simp only [step, hpres]

/-- No command writes the moves of the host; the answer alone takes one off (60_exceptions.md R300). -/
theorem Effect.pending_eq {u : State} {i : Instr} {c : Cause} {nh : Bool} (h : Effect s i c nh u) :
    u.pending = s.pending := by
  cases h <;> rfl

/-- A step that takes a command ends in an answer, on the block with the moves to come as they were. -/
theorem step_of_pending_command (hp : s.pending = .command c :: rest) :
    ∃ (u : State) (cause : Cause) (nh : Bool) (d : BitVec 64) (a : BitVec 16),
      step s = .next (u.finish cause nh d a) ∧ u.pending = s.pending := by
  cases hd : decode c.cmd with
  | error e => exact ⟨s, .illegal, false, 0, 0, step_of_decode_error hp hd, rfl⟩
  | ok i =>
    obtain ⟨u, cause, nh, d, a, he, hx⟩ := exec_answers i s
    have hstep : step s = exec i s := step_of_presented_instr (State.presented_of_decode_ok hp hd)
    exact ⟨u, cause, nh, d, a, hstep.trans hx, he.pending_eq⟩

theorem step_answers_command (hp : s.pending = .command c :: rest) :
    ∃ t r, step s = .next t ∧ t.response = some r ∧ t.pending = rest := by
  obtain ⟨u, cause, nh, d, a, hstep, hpend⟩ := step_of_pending_command hp
  exact ⟨_, _, hstep, u.finish_response .., by rw [State.finish_pending, hpend, hp, List.tail_cons]⟩

end

/-- Settles O7: with nothing at the port the step is `State.idle`. -/
theorem idleStepHoldsState : Obligations.IdleStepHoldsState := fun _ => step_of_pending_nil

/-- The step function is total (60_exceptions.md R299). -/
theorem step_total (s : State) : ∃ t, step s = .next t := by
  match hp : s.pending with
  | [] => exact ⟨_, step_of_pending_nil hp⟩
  | .reset :: _ => exact ⟨_, step_of_pending_reset hp⟩
  | .command _ :: _ =>
    obtain ⟨t, -, hstep, -⟩ := step_answers_command hp
    exact ⟨t, hstep⟩

/-- Settles O8: a legal word runs its command, whose meaning ends in an answer, and an illegal one is answered
at once. -/
theorem everyCommandIsAnswered : Obligations.EveryCommandIsAnswered :=
  ⟨step_total, fun _ _ _ => step_answers_command⟩

/-! ### A run of commands -/

/-- A run of the commands at the port, from any state with no other move to come (60_exceptions.md R301). -/
theorem run_of_pending_commands (cs : List Command) : ∀ s : State, s.pending = cs.map .command →
    (observe cs.length s).length = cs.length ∧ ∃ t, runSteps cs.length s = .next t ∧ t.pending = [] := by
  induction cs with
  | nil => exact fun s hp => ⟨rfl, s, rfl, hp⟩
  | cons c cs ih =>
    intro s hp
    obtain ⟨u, r, hstep, hr, hrest⟩ := step_answers_command hp
    obtain ⟨hlen, t, hrun, hdone⟩ := ih u hrest
    refine ⟨?_, t, ?_, hdone⟩
    · simp only [List.length_cons, observe, hstep, hr, Option.toList_some, List.singleton_append, hlen]
    · simp only [List.length_cons, runSteps, hstep, hrun]

/-- Settles O9, by induction on the commands: the step that takes the first leaves the others to come. -/
theorem runGivesOneResponsePerCommand : Obligations.RunGivesOneResponsePerCommand :=
  fun cs s => run_of_pending_commands cs (s.issue cs) rfl

/-! ### Words that are no command -/

/-- A word that no pair of 30_encoding.md R94 selects does not decode. -/
theorem decode_error_of_not_selected {w : BitVec 32} (h : ∀ p ∈ opcodeMatches, w &&& p.1 ≠ p.2) :
    ∃ e, decode w = .error e := by
  obtain ⟨-, hlegal⟩ := legalWordsAreTheOpcodeMap
  cases hd : decode w with
  | error e => exact ⟨e, rfl⟩
  | ok i =>
    obtain ⟨p, hp, hsel⟩ := (hlegal w).1.1 ⟨i, hd⟩
    exact absurd hsel (h p hp)

/-- FAC_REGISTER has no must-be-zero bits (60_exceptions.md R290). -/
theorem decode_of_wordOp_facRegister {w : BitVec 32} (h : wordOp w = 0x40#8) :
    decode w = .ok (.facRegister (wordA w) (wordB w)) := by
  obtain ⟨hr, hop⟩ := find?_opRows_eq_some_iff.1
    (rfl : opRows.find? (fun q => q.op == 0x40#8) = some ⟨0x40#8, "FAC_REGISTER", 0x00#8, 0x0000#16, .facRegister⟩)
  exact decode_eq_ok_iff.2 ⟨_, hr, ⟨hop.trans h.symm, BitVec.and_zero, BitVec.and_zero⟩, rfl⟩

/-- Settles O4: the step raises E_ILLEGAL on a word without a command, RD_REG on a number without a register, and
the row of OP 0x40 admits every operand. -/
theorem illegalRaisesWithoutEffect : Obligations.IllegalRaisesWithoutEffect := by
  refine ⟨?_, fun s r hr => RdReg.exec_of_none (regValue_eq_none hr), fun w hw =>
    ⟨_, decode_of_wordOp_facRegister hw⟩⟩
  intro s c rest hp hsel
  obtain ⟨e, hd⟩ := decode_error_of_not_selected hsel
  exact step_of_decode_error hp hd

end Sys2Proof.Machine
end

section
/-! PROOFS. The failures (60_exceptions.md sections 1 and 3): which causes a command raises (R282), what each
leaves of the block (R286), and the codes that no response carries (R280, R289). -/

namespace Sys2Proof.Machine

/-- `AsListed s i r`: the result `r` of `i` on `s` is a success, or a failure with a cause `raisable` lists, which left
the block as `failureState` says and answered DOUT and DAUX 0 unless a dispatch had found a handler.
`exec_asListed` ties it to `exec`. -/
inductive AsListed (s : State) : Instr → Result → Prop
  | succeeds {i : Instr} (u : State) (nh : Bool) (d : BitVec 64) (a : BitVec 16) :
      AsListed s i (.next (u.finish .ok nh d a))
  | fails {i : Instr} {c : Cause} (listed : c ∈ raisable i) :
      AsListed s i (.next ((failureState i c s).finish c false 0 0))
  | dispatchFails {c : Cause} (listed : c ∈ raisable .facDispatch) (found : c ≠ .fmtShort) (d : BitVec 64)
      (a : BitVec 16) : AsListed s .facDispatch (.next ((failureState .facDispatch c s).finish c false d a))

section
variable {s u : State} {i : Instr} {c : Cause}

/-- A raise from the state the table of R286 lists. -/
theorem raise_asListed (hu : failureState i c s = u) (hc : c ∈ raisable i) : AsListed s i (u.raise c) := by
  subst hu
  exact .fails hc

/-! ### Field writes -/

theorem raisable_of_isWrite (hi : isWrite i = true) : .state ∈ raisable i ∧ .overflow ∈ raisable i := by
  cases i with
  | wrByte _ | wrShort _ | wrUshort _ | wrInt _ | wrUint _ | wrLong _ | wrDouble _ | wrString _ | wrBytes _
  | wrBytesLp _ => simp [raisable]
  | _ => cases hi

theorem failureState_write_state (hi : isWrite i = true) : failureState i .state s = s := by
  simp [failureState, hi]

theorem failureState_write (hi : isWrite i = true) (hc : c ≠ .state) : failureState i c s = s.setTxErr c := by
  simp only [failureState, hi, hc, if_true, if_false]
  rfl

theorem writeField_asListed {t : FieldType} {e : BitVec 16} {bs : List Byte} (hi : isWrite i = true) :
    AsListed s i (writeField t e bs s) := by
  obtain ⟨-, hr⟩ | ⟨-, -, hr⟩ := writeField_cases t e bs s <;> rw [hr]
  · exact raise_asListed (failureState_write hi nofun) (raisable_of_isWrite hi).2
  · exact .succeeds ..

/-- LONG and DOUBLE take any operand, so that their writes never raise E_RANGE. -/
theorem writeScalar_asListed {t : FieldType} {e : BitVec 16} (hi : isWrite i = true)
    (hrange : inRange t s.din = false → .range ∈ raisable i) : AsListed s i (writeScalar t e s) := by
  obtain ⟨-, hr⟩ | ⟨-, hout, hr⟩ | ⟨-, -, hr⟩ := writeScalar_cases t e s <;> rw [hr]
  · exact raise_asListed (failureState_write_state hi) (raisable_of_isWrite hi).1
  · exact raise_asListed (failureState_write hi nofun) (hrange hout)
  · exact writeField_asListed hi

theorem writeBytes_asListed {t : FieldType} {e : BitVec 16} {bs : List Byte} (hi : isWrite i = true) :
    AsListed s i (writeBytes t e bs s) := by
  obtain ⟨-, hr⟩ | ⟨-, hr⟩ := writeBytes_cases t e bs s <;> rw [hr]
  · exact raise_asListed (failureState_write_state hi) (raisable_of_isWrite hi).1
  · exact writeField_asListed hi

/-! ### Field reads -/

theorem raisable_of_isRead (hi : isRead i = true) :
    .state ∈ raisable i ∧ .bounds ∈ raisable i ∧ .overflow ∈ raisable i := by
  cases i with
  | rdByte _ | rdShort _ | rdUshort _ | rdInt _ | rdUint _ | rdLong _ | rdDouble _ | rdString _ | rdBytes _
  | rdBytesLp _ => simp [raisable]
  | _ => cases hi

theorem isWrite_eq_false_of_isRead (hi : isRead i = true) : isWrite i = false := by
  cases i with
  | rdByte _ | rdShort _ | rdUshort _ | rdInt _ | rdUint _ | rdLong _ | rdDouble _ | rdString _ | rdBytes _
  | rdBytesLp _ => rfl
  | _ => cases hi

theorem failureState_read_state (hi : isRead i = true) : failureState i .state s = s := by
  simp [failureState, isWrite_eq_false_of_isRead hi, hi]

theorem failureState_read (hi : isRead i = true) (hc : c ≠ .state) : failureState i c s = s.setRxErr c := by
  simp only [failureState, isWrite_eq_false_of_isRead hi, hi, hc, Bool.false_eq_true, if_true, if_false]
  rfl

theorem readField_asListed {t : FieldType} {e : BitVec 16} {n : Nat} {d : BitVec 64} {a : BitVec 16}
    (hi : isRead i = true) : AsListed s i (readField t e n d a s) := by
  obtain ⟨-, hbounds, hoverflow⟩ := raisable_of_isRead hi
  obtain ⟨-, hr⟩ | ⟨-, -, hr⟩ | ⟨-, -, hr⟩ := readField_cases t e n d a s <;> rw [hr]
  · exact raise_asListed (failureState_read hi nofun) hbounds
  · exact raise_asListed (failureState_read hi nofun) hoverflow
  · exact .succeeds ..

theorem readScalar_asListed {t : FieldType} {e : BitVec 16} (hi : isRead i = true) :
    AsListed s i (readScalar t e s) := by
  obtain ⟨-, hr⟩ | ⟨-, hr⟩ := readScalar_cases t e s <;> rw [hr]
  · exact raise_asListed (failureState_read_state hi) (raisable_of_isRead hi).1
  · exact readField_asListed hi

theorem readPrefixed_asListed {t : FieldType} {e : BitVec 16} (hi : isRead i = true) :
    AsListed s i (readPrefixed t e s) := by
  obtain ⟨hstate, hbounds, -⟩ := raisable_of_isRead hi
  obtain ⟨-, hr⟩ | ⟨-, -, hr⟩ | ⟨-, -, hr⟩ := readPrefixed_cases t e s <;> rw [hr]
  · exact raise_asListed (failureState_read_state hi) hstate
  · exact raise_asListed (failureState_read hi nofun) hbounds
  · exact readField_asListed hi

theorem execRdBytes_asListed {e : BitVec 16} : AsListed s (.rdBytes e) (execRdBytes e s) := by
  obtain ⟨-, hr⟩ | ⟨-, -, hr⟩ | ⟨-, -, hr⟩ := execRdBytes_cases e s <;> rw [hr]
  · exact raise_asListed rfl (.head _)
  · exact raise_asListed rfl (.tail _ (.head _))
  · exact readField_asListed rfl

/-! ### Commands whose failures write nothing -/

theorem readIndexed_asListed {sp : Space} {k : BitVec 16} (hs : failureState i .bounds s = s)
    (hc : .bounds ∈ raisable i) : AsListed s i (readIndexed sp k s) := by
  obtain ⟨b, -, hr⟩ | ⟨-, hr⟩ := readIndexed_cases sp k s <;> rw [hr]
  · exact .succeeds ..
  · exact raise_asListed hs hc

theorem execLogRead_asListed {a : BitVec 8} {k : BitVec 16} : AsListed s (.logRead a k) (execLogRead a k s) := by
  obtain ⟨-, hr⟩ | ⟨-, -, hr⟩ | ⟨-, r, -, hr⟩ := execLogRead_cases a k s <;> rw [hr]
  · exact raise_asListed rfl (.head _)
  · exact raise_asListed rfl (.tail _ (.head _))
  · exact .succeeds ..

theorem execRdReg_asListed {r : BitVec 8} : AsListed s (.rdReg r) (execRdReg r s) := by
  obtain ⟨v, -, hr⟩ | ⟨-, hr⟩ := execRdReg_cases r s <;> rw [hr]
  · exact .succeeds ..
  · exact raise_asListed rfl (.head _)

theorem execSetEndian_asListed {a : BitVec 8} : AsListed s (.setEndian a) (execSetEndian a s) := by
  unfold execSetEndian
  split
  · exact .succeeds ..
  · exact raise_asListed rfl (.head _)

theorem execStgPush_asListed {b : Byte} : AsListed s (.stgPush b) (execStgPush b s) := by
  unfold execStgPush
  split
  · exact raise_asListed rfl (.head _)
  · exact .succeeds ..

theorem execInPush_asListed {b : Byte} : AsListed s (.inPush b) (execInPush b s) := by
  unfold execInPush
  split
  · exact raise_asListed rfl (.head _)
  · exact .succeeds ..

theorem execFrameEncode_asListed : AsListed s .frameEncode (execFrameEncode s) := by
  unfold execFrameEncode
  split
  · exact raise_asListed rfl (.head _)
  · exact .succeeds ..

/-! ### Frames and dispatch -/

/-- The validator's verdicts (40_frame_codec.md R133). -/
theorem State.frameFault_mem (h : s.frameFault = some c) :
    c ∈ [Cause.fmtShort, .fmtInit, .fmtHck, .fmtSize, .fmtTrunc, .fmtDck] := by
  unfold frameFault at h
  split_ifs at h <;> cases h <;> decide

/-- An input with a whole header is never called short. -/
theorem State.frameFault_ne_fmtShort (hlen : 8 ≤ s.mem.ibuf.length) : s.frameFault ≠ some .fmtShort := by
  rw [frameFault, if_neg (Nat.not_lt.2 hlen)]
  split_ifs <;> decide

theorem exec_frameDecode_asListed : AsListed s .frameDecode (exec .frameDecode s) := by
  cases hf : s.frameFault with
  | none => exact exec_frameDecode_of_accepted hf ▸ .succeeds ..
  | some c => exact exec_frameDecode_of_fault hf ▸ .fails (State.frameFault_mem hf)

theorem failureState_facDispatch (hc : c ≠ .fmtShort) :
    failureState .facDispatch c s = { s.foundHandler with rx := s.rejectedRx c } := if_neg hc

theorem exec_facDispatch_asListed_of_known (hlen : 8 ≤ s.mem.ibuf.length)
    (hv : (s.entry (s.mem.byte .ibuf 1)).valid = true) : AsListed s .facDispatch (exec .facDispatch s) := by
  cases hf : s.frameFault with
  | none => exact exec_facDispatch_of_accepted hlen hv hf ▸ .succeeds ..
  | some c =>
    have hc : c ≠ .fmtShort := fun h => State.frameFault_ne_fmtShort hlen (h ▸ hf)
    rw [exec_facDispatch_of_fault hlen hv hf, ← failureState_facDispatch hc]
    exact .dispatchFails (State.frameFault_mem hf) hc ..

theorem execFacDispatch_asListed : AsListed s .facDispatch (execFacDispatch s) := by
  obtain ⟨-, hr⟩ | ⟨-, -, hr⟩ | ⟨hlen, hv, -⟩ := execFacDispatch_cases s
  · exact hr ▸ raise_asListed rfl (.head _)
  · exact hr ▸ .succeeds ..
  · exact exec_facDispatch_asListed_of_known hlen hv

end

/-! ### Every command -/

/-- Every command succeeds or fails as listed. -/
theorem exec_asListed (i : Instr) (s : State) : AsListed s i (exec i s) := by
  cases i with
  | nop | setType _ | setSeq _ | setErrc _ | sreset | stgClear | inClear | txBegin | facRegister _ _ =>
    exact .succeeds ..
  | setEndian a => exact execSetEndian_asListed
  | rdReg r => exact execRdReg_asListed
  | stgPush b => exact execStgPush_asListed
  | inPush b => exact execInPush_asListed
  | inRead k | fbRead k => exact readIndexed_asListed rfl (.head _)
  | logRead a k => exact execLogRead_asListed
  | wrByte _ | wrShort _ | wrUshort _ | wrInt _ | wrUint _ =>
    exact writeScalar_asListed rfl fun _ => .tail _ (.head _)
  | wrLong _ | wrDouble _ => exact writeScalar_asListed rfl nofun
  | wrString _ | wrBytes _ | wrBytesLp _ => exact writeBytes_asListed rfl
  | frameEncode => exact execFrameEncode_asListed
  | rdByte _ | rdShort _ | rdUshort _ | rdInt _ | rdUint _ | rdLong _ | rdDouble _ => exact readScalar_asListed rfl
  | rdString _ | rdBytesLp _ => exact readPrefixed_asListed rfl
  | rdBytes _ => exact execRdBytes_asListed
  | frameDecode => exact exec_frameDecode_asListed
  | facDispatch => exact execFacDispatch_asListed

/-- Settles O56: a cause's code names it, so that the cause other than OK is that of a listed failure, whose answer
writes the port alone. -/
theorem failuresLeaveTheListedState : Obligations.FailuresLeaveTheListedState := by
  intro s t i r c ht hr hcause hc
  have hrep : AsListed s i (.next t) := ht ▸ exec_asListed i s
  cases hrep with
  | succeeds u nh d a =>
    cases hr
    rw [Response.cause_statusWord] at hcause
    exact absurd (code_injective hcause).symm hc
  | fails listed =>
    cases hr
    rw [Response.cause_statusWord] at hcause
    cases code_injective hcause
    exact ⟨rfl, fun _ => ⟨rfl, rfl⟩⟩
  | dispatchFails listed found d a =>
    cases hr
    rw [Response.cause_statusWord] at hcause
    cases code_injective hcause
    exact ⟨rfl, fun hshort => absurd hshort (not_or_intro (not_not_intro rfl) found)⟩

/-- Settles O57: the cause of a success is OK, that of a failure is listed. -/
theorem commandsRaiseOnlyTheirCauses : Obligations.CommandsRaiseOnlyTheirCauses := by
  intro s t i r ht hr
  have hrep : AsListed s i (.next t) := ht ▸ exec_asListed i s
  cases hrep with
  | succeeds u nh d a =>
    cases hr
    exact ⟨.ok, List.mem_cons_self, Response.cause_statusWord ..⟩
  | fails listed | dispatchFails listed found d a =>
    cases hr
    exact ⟨_, List.mem_cons_of_mem _ listed, Response.cause_statusWord ..⟩

/-! ### The codes -/

/-- No command lists E_UNSUPPORTED (60_exceptions.md R289). -/
theorem unsupported_not_mem_raisable (i : Instr) : .unsupported ∉ raisable i := by
  cases i <;> simp [raisable]

theorem code_toNat_le (c : Cause) : c.code.toNat ≤ 0x0C := by cases c <;> decide

/-- The cause of a response of the step, by name (60_exceptions.md R289). -/
theorem cause_of_step {s t : State} {r : Response} (h : step s = .next t) (hr : t.response = some r) :
    ∃ c : Cause, r.cause = c.code ∧ c ≠ .unsupported := by
  obtain rfl | rfl | ⟨cmd, rest, e, -, -, rfl⟩ | ⟨cmd, rest, i, -, -, hx⟩ := step_cases h
  · cases hr
  · cases hr
  · cases hr
    exact ⟨.illegal, Response.cause_statusWord .., nofun⟩
  · obtain ⟨c, hc, hcode⟩ := commandsRaiseOnlyTheirCauses s t i r hx hr
    refine ⟨c, hcode, ?_⟩
    rintro rfl
    obtain hok | hmem := List.mem_cons.1 hc
    · cases hok
    · exact unsupported_not_mem_raisable i hmem

/-- Settles O58: every cause but E_UNSUPPORTED has another code than 0x07, and none a code above 0x0C. -/
theorem reservedCausesAreNeverRaised : Obligations.ReservedCausesAreNeverRaised := by
  intro s t r h hr
  obtain ⟨c, hcode, hc⟩ := cause_of_step h hr
  rw [hcode]
  exact ⟨fun h7 => hc (code_injective (d := .unsupported) h7), code_toNat_le c⟩

/-- Settles O11: both lists are evaluated. -/
theorem causeAndTypeNumbers : Obligations.CauseAndTypeNumbers := ⟨rfl, rfl⟩

end Sys2Proof.Machine
end

section
/-! PROOFS. Reset and the hazards (70_reset_and_hazards.md): the reset values (R320), a change of IBUF ends the decoder
session (R324), and a session keeps the byte order it latched when it started (R325). -/

namespace Sys2Proof.Machine

/-! ### Reset -/

theorem step_of_reset_event {s : State} {rest : List HostMove} (hp : s.pending = .reset :: rest) :
    step s = .next { State.reset with pending := rest } := by
  rw [step_of_pending_reset hp, State.takeReset, hp]
  rfl

/-- SRESET answers from the reset state, whose flags are all 0 (44_control.md R246). -/
theorem exec_sreset_answered (s : State) :
    exec .sreset s =
      .next { State.reset with pending := s.pending.tail, response := some ⟨0x00000000#32, 0, 0⟩ } := by
  rw [exec_sreset, State.finish, State.resetBlock_tx, State.resetBlock_rx, statusWord_reset]
  rfl

@[simp] theorem len_reset (sp : Space) : State.reset.mem.len sp = 0 := by cases sp <;> rfl

@[simp] theorem entry_reset (t : Byte) : State.reset.entry t = ⟨false, 0x0000#16⟩ :=
  Vector.getElem_replicate t.toFin.isLt

/-- Settles O13: both resets leave `State.reset`, which is read off element by element. -/
theorem resetSetsEveryElement : Obligations.ResetSetsEveryElement :=
  ⟨fun _ _ => step_of_reset_event, exec_sreset_answered, rfl, rfl, rfl, len_reset, entry_reset, rfl⟩

/-! ### A change of IBUF -/

section
variable {s u : State} {i : Instr} {c : Cause} {nh : Bool}

/-- IBUF changes by IN_CLEAR, IN_PUSH and SRESET alone, and each of them runs RX_CLEAR too or resets. -/
theorem Effect.rx_of_ibuf_ne (h : Effect s i c nh u) (hne : u.mem.ibuf ≠ s.mem.ibuf) :
    u.rx = s.rx.cleared ∨ u.rx = Rx.reset := by
  cases h with
  | inClear | inPush _ _ => exact .inl rfl
  | reset => exact .inr rfl
  | _ => exact absurd rfl hne

end

/-- Settles O54: a cleared channel and a reset one both have no session and no log. -/
theorem inputChangeEndsSession : Obligations.InputChangeEndsSession := by
  intro s t i h hne
  obtain ⟨u, c, nh, d, a, he, rfl⟩ := effect_of_exec h
  rw [State.finish_rx]
  obtain hrx | hrx := he.rx_of_ibuf_ne hne <;> rw [hrx] <;> exact ⟨rfl, rfl, rfl, rfl, rfl⟩

/-! ### The byte order a session latches -/

section
variable {s t : State}

theorem tx_endian_of_txBegin (h : exec .txBegin s = .next t) : t.tx.endian = s.cfgEndian := by
  cases h
  rfl

/-- FRAME_DECODE latches CFG.ENDIAN before it validates, so that a rejected frame latches it too. -/
theorem rx_endian_of_frameDecode (h : exec .frameDecode s = .next t) : t.rx.endian = s.cfgEndian := by
  obtain ⟨_, -, hr⟩ | ⟨_, -, hr⟩ := execFrameDecode_cases s <;> cases h.symm.trans hr <;> rfl

theorem rx_endian_of_facDispatch (hl : 8 ≤ s.mem.ibuf.length) (hv : (s.entry (s.mem.byte .ibuf 1)).valid = true)
    (h : exec .facDispatch s = .next t) : t.rx.endian = s.cfgEndian := by
  have hfound : dispatchFound s.foundHandler = .next t := (execFacDispatch_of_known hl hv).symm.trans h
  obtain ⟨_, -, hr⟩ | ⟨_, -, hr⟩ := dispatchFound_cases s.foundHandler <;> cases hfound.symm.trans hr <;> rfl

end

/-! ### The commands that do not look at CFG.ENDIAN -/

/-- The same block with any CFG.ENDIAN. -/
def State.withCfgEndian (b : Endian) (s : State) : State := { s with cfgEndian := b }

/-- The commands whose result depends on CFG.ENDIAN or that write it. -/
def usesCfgEndian : Instr → Bool
  | .txBegin | .frameDecode | .facDispatch | .sreset | .setEndian _ => true
  | .rdReg r => r == 0x00#8
  | _ => false

section
variable {b : Endian} {s : State} {t : FieldType} {e : BitVec 16}

theorem writeField_withCfgEndian {bs : List Byte} :
    Commutes (State.withCfgEndian b) (writeField t e bs s) (writeField t e bs (s.withCfgEndian b)) :=
  .ite Iff.rfl (fun _ => .finish (s.setTxErr .overflow)) fun _ =>
    .ite Iff.rfl (fun _ => .finish (s.setTxErr .overflow)) fun _ => .finish (s.appendField t e bs)

/-- A scalar write encodes in TX.ENDIAN. -/
theorem writeScalar_withCfgEndian :
    Commutes (State.withCfgEndian b) (writeScalar t e s) (writeScalar t e (s.withCfgEndian b)) :=
  .ite Iff.rfl (fun _ => .finish s) fun _ =>
    .ite Iff.rfl (fun _ => writeField_withCfgEndian) fun _ => .finish (s.setTxErr .range)

theorem writeBytes_withCfgEndian {bs : List Byte} :
    Commutes (State.withCfgEndian b) (writeBytes t e bs s) (writeBytes t e bs (s.withCfgEndian b)) :=
  .ite Iff.rfl (fun _ => .finish s) fun _ => writeField_withCfgEndian

theorem readField_withCfgEndian {n : Nat} {d : BitVec 64} {a : BitVec 16} :
    Commutes (State.withCfgEndian b) (readField t e n d a s) (readField t e n d a (s.withCfgEndian b)) :=
  .ite Iff.rfl (fun _ => .finish (s.setRxErr .bounds)) fun _ =>
    .ite Iff.rfl (fun _ => .finish (s.setRxErr .overflow)) fun _ => .finish (s.consume t e n)

/-- A scalar read decodes in RX.ENDIAN. -/
theorem readScalar_withCfgEndian :
    Commutes (State.withCfgEndian b) (readScalar t e s) (readScalar t e (s.withCfgEndian b)) :=
  .ite Iff.rfl (fun _ => readField_withCfgEndian) fun _ => .finish s

theorem readPrefixed_withCfgEndian :
    Commutes (State.withCfgEndian b) (readPrefixed t e s) (readPrefixed t e (s.withCfgEndian b)) :=
  .ite Iff.rfl (fun _ => .ite Iff.rfl (fun _ => .finish (s.setRxErr .bounds)) fun _ => readField_withCfgEndian)
    fun _ => .finish s

theorem execRdBytes_withCfgEndian :
    Commutes (State.withCfgEndian b) (execRdBytes e s) (execRdBytes e (s.withCfgEndian b)) :=
  .ite Iff.rfl (fun _ => .ite Iff.rfl (fun _ => readField_withCfgEndian) fun _ => .finish (s.setRxErr .range))
    fun _ => .finish s

theorem readIndexed_withCfgEndian {sp : Space} {k : BitVec 16} :
    Commutes (State.withCfgEndian b) (readIndexed sp k s) (readIndexed sp k (s.withCfgEndian b)) := by
  obtain ⟨x, hx, hr⟩ | ⟨hx, hr⟩ := readIndexed_cases sp k s <;> rw [hr]
  · exact readIndexed_of_some (s := s.withCfgEndian b) hx ▸ .finish s
  · exact readIndexed_of_none (s := s.withCfgEndian b) hx ▸ .finish s

theorem execLogRead_withCfgEndian {a : BitVec 8} {k : BitVec 16} :
    Commutes (State.withCfgEndian b) (execLogRead a k s) (execLogRead a k (s.withCfgEndian b)) := by
  obtain ⟨ha, hr⟩ | ⟨ha, hk, hr⟩ | ⟨ha, r, hk, hr⟩ := execLogRead_cases a k s <;> rw [hr]
  · exact execLogRead_of_bad_selector (s := s.withCfgEndian b) ha ▸ .finish s
  · exact execLogRead_of_none (s := s.withCfgEndian b) ha rfl hk ▸ .finish s
  · exact execLogRead_of_some (s := s.withCfgEndian b) ha rfl hk ▸ .finish s

/-- CFG is the one register that shows CFG.ENDIAN (10_state.md R36). -/
theorem regValue_withCfgEndian {r : BitVec 8} (hr : r ≠ 0x00#8) : regValue (s.withCfgEndian b) r = regValue s r := by
  have h0 : r.toNat ≠ 0 := fun h => hr (BitVec.eq_of_toNat_eq h)
  unfold regValue
  split
  case h_1 h => exact absurd h h0
  all_goals rfl

theorem execRdReg_withCfgEndian {r : BitVec 8} (hr : r ≠ 0x00#8) :
    Commutes (State.withCfgEndian b) (execRdReg r s) (execRdReg r (s.withCfgEndian b)) := by
  unfold execRdReg
  rw [regValue_withCfgEndian hr]
  cases regValue s r <;> exact .finish s

/-- Every other command commutes with a change of CFG.ENDIAN (R325). -/
theorem exec_withCfgEndian {i : Instr} (hi : usesCfgEndian i = false) :
    Commutes (State.withCfgEndian b) (exec i s) (exec i (s.withCfgEndian b)) := by
  cases i with
  | txBegin | frameDecode | facDispatch | sreset | setEndian _ => cases hi
  | rdReg r => exact execRdReg_withCfgEndian (by simpa [usesCfgEndian] using hi)
  | nop => exact .finish s
  | setType tag => exact .finish { s with tx := { s.tx with typeTag := tag } }
  | setSeq seq => exact .finish { s with tx := { s.tx with seq := seq } }
  | setErrc errc => exact .finish { s with tx := { s.tx with errc := errc } }
  | stgClear => exact .finish { s with mem := s.mem.set .stage [] }
  | stgPush x => exact .ite Iff.rfl (fun _ => .finish s) fun _ => .finish { s with mem := s.mem.push .stage [x] }
  | inClear => exact .finish ({ s with mem := s.mem.set .ibuf [] } : State).rxClear
  | inPush x =>
    exact .ite Iff.rfl (fun _ => .finish s) fun _ => .finish ({ s with mem := s.mem.push .ibuf [x] } : State).rxClear
  | inRead _ | fbRead _ => exact readIndexed_withCfgEndian
  | logRead _ _ => exact execLogRead_withCfgEndian
  | wrByte _ | wrShort _ | wrUshort _ | wrInt _ | wrUint _ | wrLong _ | wrDouble _ => exact writeScalar_withCfgEndian
  | wrString _ | wrBytes _ | wrBytesLp _ => exact writeBytes_withCfgEndian
  | frameEncode => exact .ite Iff.rfl (fun _ => .finish s) fun _ => .finish s.encodeFrame
  | rdByte _ | rdShort _ | rdUshort _ | rdInt _ | rdUint _ | rdLong _ | rdDouble _ => exact readScalar_withCfgEndian
  | rdString _ | rdBytesLp _ => exact readPrefixed_withCfgEndian
  | rdBytes _ => exact execRdBytes_withCfgEndian
  | facRegister tag h => exact .finish (s.register tag h)

/-- Such a command answers the same, and leaves the same block but for the CFG.ENDIAN it was given. -/
theorem exec_eq_of_exec_withCfgEndian {i : Instr} {u : State} (hi : usesCfgEndian i = false)
    (h : exec i s = .next u) : exec i (s.withCfgEndian b) = .next (u.withCfgEndian b) := by
  obtain ⟨v, c, nh, d, a, hv, hr⟩ := exec_withCfgEndian (b := b) (s := s) hi
  cases h.symm.trans hv
  exact hr

end

/-- Settles O50: the latching commands one by one, the frame of the two latches from `Effect`, and the other
commands by `exec_withCfgEndian`. -/
theorem byteOrderIsLatched : Obligations.ByteOrderIsLatched := by
  intro s t i h
  obtain ⟨u, c, nh, d, a, he, rfl⟩ := effect_of_exec h
  refine ⟨?_, ?_, ?_, he.tx_endian_eq, he.rx_endian_eq, ?_⟩
  · rintro rfl
    exact tx_endian_of_txBegin h
  · rintro rfl
    exact rx_endian_of_frameDecode h
  · rintro rfl hl hv
    exact rx_endian_of_facDispatch hl hv h
  · intro htx hfd hfac hreset hset hcfg e
    have hi : usesCfgEndian i = false := by
      cases i with
      | rdReg r => simpa [usesCfgEndian] using hcfg
      | setEndian a => exact absurd rfl (hset a)
      | txBegin | frameDecode | facDispatch | sreset => contradiction
      | _ => rfl
    exact exec_eq_of_exec_withCfgEndian hi h

end Sys2Proof.Machine
end
